-- ==== Sys2Proof/Word.lean ====
section
/-! DEFINITION. The word type of the link, the numbered resources of the part, and the fixed-size table.
The part's arithmetic is on integers (00_scope.md, "Arithmetic"), so only link bytes and the CRC are bit vectors. -/

namespace Sys2Proof

/-- One byte of a link frame (R176). -/
abbrev Byte := BitVec 8

/-- A drive channel, 0 to 47; also the index of its outlet record (R1). -/
abbrev Channel := Fin 48

/-- A hand-off bank, 0 to 5 (R129). -/
abbrev BankId := Fin 6

/-- A program slot, 0 to 3 (R136). -/
abbrev SlotId := Fin 4

/-- A sensor input: 0 to 47 BTMP, 48 HDRP, 49 STMP1, 50 STMP2 (9.1). -/
abbrev InputId := Fin 51

/-- `n` records of one kind, one per index: a list that carries its length. -/
structure Table (α : Type) (n : Nat) where
  toList : List α
  size_eq : toList.length = n
deriving DecidableEq, Repr

namespace Table

variable {α β : Type} {n : Nat}

/-- The record of index `i`. -/
def get (t : Table α n) (i : Fin n) : α :=
  t.toList.get (i.cast t.size_eq.symm)

/-- The table with the record of index `i` replaced. -/
def set (t : Table α n) (i : Fin n) (x : α) : Table α n :=
  ⟨t.toList.set i x, by rw [List.length_set, t.size_eq]⟩

/-- Every record changed by `f`. -/
def map (f : α → β) (t : Table α n) : Table β n :=
  ⟨t.toList.map f, by rw [List.length_map, t.size_eq]⟩

/-- The table that holds `x` at every index. -/
def fill (n : Nat) (x : α) : Table α n :=
  ⟨List.replicate n x, List.length_replicate⟩

end Table

/-- Every index below `n`, in ascending order. -/
def indices (n : Nat) : List (Fin n) :=
  (List.range n).filterMap fun i => if h : i < n then some ⟨i, h⟩ else none

/-- The bank of a channel: bank b holds channels 8b to 8b+7 (00_scope.md, R1). -/
def bankOf (c : Channel) : BankId :=
  ⟨c.val / 8, Nat.div_lt_of_lt_mul c.isLt⟩

end Sys2Proof
end

