-- ==== Sys2Proof/Config.lean ====
section
/-! DEFINITION. The figures the spec fixes for the part. The spec leaves no value of the part to the implementation and
calls no result undefined, so no free value (opaque constant) stands here. -/

namespace Sys2Proof.Config

/-- Request frames that may wait in the request queue (R179). -/
def queueLimit : Nat := 4

/-- A QUEUE_FULL reply is made only while the transmit order holds fewer frames than this (R179). -/
def queueFullLimit : Nat := 6

/-- Frames the transmit order can hold (R182). -/
def transmitLimit : Nat := 16

/-- The START byte of a frame (R177). -/
def startByte : Byte := 0x3C

/-- Milliseconds that may pass between two bytes of a frame (R178). -/
def gapMs : Nat := 20

/-- Curtailment log entries held (R89). -/
def logLimit : Nat := 32

/-- Log entries one READ-LOG takes (R92). -/
def logReadLimit : Nat := 8

/-- Drive slots (R102). -/
def driveSlots : Nat := 8

/-- Steps in the step store, over all slots (R136). -/
def storeSteps : Nat := 64

/-- Steps in one program (R139). -/
def slotSteps : Nat := 32

/-- Reversal pause in milliseconds (R111). -/
def pauseMs : Nat := 2000

/-- Ticks of the millisecond timebase in one second (R103). -/
def msPerSecond : Nat := 1000

/-- Travel since the last homing at which DRIFT is set (R112). -/
def driftTravel : Nat := 4000

/-- The value at which TRAVEL stays (R112). -/
def travelMax : Nat := 65535

/-- Minutes of the plant week (R164). -/
def weekMinutes : Nat := 10080

/-- The limit of a pool's capacity figures (R43). -/
def capacityMax : Nat := 8000

/-- Entries of the channel map (R170). -/
def mapSize : Nat := 128

end Sys2Proof.Config
end

