-- ==== Sys2Proof/Syntax.lean ====
section
/-! DEFINITION. The commands of the part: one constructor per row of spec/opcode_table.json, in the table's order.
The 27 request rows act on the frame at the head of the request queue (R180), so their operands are that frame's
payload; the event rows carry what the event names (a channel, a pool, a line level, a reading, bytes). -/

namespace Sys2Proof

/-- The two storage calorifiers' pools. -/
inductive HwPool where
  | hw1
  | hw2
deriving DecidableEq, Repr

/-- The three supplies (R26). -/
inductive Pool where
  | steam
  | hw (h : HwPool)
deriving DecidableEq, Repr

/-- The two limit switches of a channel. -/
inductive LimitLine where
  | olim
  | clim
deriving DecidableEq, Repr

/-- A frame between its START and its CRC: LEN and the CRC follow from these (R177). -/
structure Frame where
  kind : Byte
  tag : Byte
  payload : List Byte
deriving DecidableEq, Repr

/-- The commands. -/
inductive Instr where
  /-- FRAME_ARRIVAL (R178): these bytes arrive on LRX, one after another with no gap. -/
  | frameArrival (bytes : List Byte)
  /-- GAP_TIMER_EXPIRY (R178): the receiver's gap timer runs out. -/
  | gapTimerExpiry
  /-- BAD_KIND (R180): the head frame is executed and its KIND names no request. -/
  | badKind
  /-- FRAME_SENT (R182): the last byte of the oldest ready frame has been sent. -/
  | frameSent
  /-- RSTN_ASSERTED (R189): RSTn goes low. -/
  | rstnAsserted
  /-- HARDWARE_RESET (R189): RSTn goes high; the straps SPD1 and SPD0 stand at these levels (true = high). -/
  | hardwareReset (spd1 spd0 : Bool)
  /-- OUTLET_SET (R6). -/
  | outletSet
  /-- OUTLET_DROP (R13). -/
  | outletDrop
  /-- PROFILE_SET (R15). -/
  | profileSet
  /-- BAR_SET (R16). -/
  | barSet
  /-- DEMAND (R72). -/
  | demand
  /-- REHOME (R127). -/
  | rehome
  /-- FAULT_CLEAR (R128). -/
  | faultClear
  /-- POOL_SET (R27). -/
  | poolSet
  /-- PROFILE_SWAP (R36). -/
  | profileSwap
  /-- SUPPLY (R34). -/
  | supply
  /-- REBALANCE (R33). -/
  | rebalance
  /-- RANGE_SET (R171). -/
  | rangeSet
  /-- MAP_SET (R173). -/
  | mapSet
  /-- PROG_LOAD_FIRST (R138). -/
  | progLoadFirst
  /-- PROG_LOAD_NEXT (R139). -/
  | progLoadNext
  /-- PROG_START (R141). -/
  | progStart
  /-- PROG_STOP (R143). -/
  | progStop
  /-- CLOCK_SET (R165). -/
  | clockSet
  /-- READ_OUTLET (R24). -/
  | readOutlet
  /-- READ_POOL (R45). -/
  | readPool
  /-- READ_PROG (R156). -/
  | readProg
  /-- READ_SENSORS (R163). -/
  | readSensors
  /-- READ_LOG (R92). -/
  | readLog
  /-- READ_STATUS (R187). -/
  | readStatus
  /-- NOTICE_ACK (R185). -/
  | noticeAck
  /-- NOTICE_MASK (R186). -/
  | noticeMask
  /-- RESET (R188). -/
  | reset
  /-- ROUND_TIMER_EXPIRY (R32). -/
  | roundTimerExpiry (p : Pool)
  /-- CAPACITY_STALENESS_EXPIRY (R35). -/
  | capacityStalenessExpiry
  /-- STALENESS_TIMER_EXPIRY (R78). -/
  | stalenessTimerExpiry (c : Channel)
  /-- WARM_TIMER_EXPIRY (R64). -/
  | warmTimerExpiry (c : Channel)
  /-- SAMPLE_EVENT (R160): the input gives this reading, in its own unit. -/
  | sampleEvent (i : InputId) (reading : Int)
  /-- CLOCK_TICK (R164): a tick of the one-second timebase. -/
  | clockTick
  /-- MOVE_TIMER_EXPIRY (R105). -/
  | moveTimerExpiry (c : Channel)
  /-- CHECK_TIMER_EXPIRY (R108). -/
  | checkTimerExpiry (c : Channel)
  /-- PAUSE_TIMER_EXPIRY (R111). -/
  | pauseTimerExpiry (c : Channel)
  /-- LIMIT_EVENT (R105): the line of the channel changes to this level (true = active). -/
  | limitEvent (c : Channel) (line : LimitLine) (active : Bool)
  /-- BHO_ASSERTION (R130). -/
  | bhoAssertion (b : BankId)
  /-- BHO_RELEASE (R133). -/
  | bhoRelease (b : BankId)
  /-- REACH_TIMER_EXPIRY (R150). -/
  | reachTimerExpiry (i : SlotId)
  /-- HOLD_TIMER_EXPIRY (R149). -/
  | holdTimerExpiry (i : SlotId)
  /-- GAP_TIMER_EXPIRY_PROG (R154). -/
  | gapTimerExpiryProg (i : SlotId)
deriving DecidableEq, Repr

end Sys2Proof
end

