-- ==== Sys2Proof/WellFormed.lean ====
section
/-! DEFINITION. Which commands and frames are well formed. Channel, bank, slot and input numbers carry their bounds in
their types; what is left to check is below. -/

namespace Sys2Proof

/-- A frame that can stand on the line: LEN counts KIND, TAG and the payload and lies in 2 to 120, so the payload has
0 to 118 bytes (R177). -/
def Frame.wellFormed (f : Frame) : Bool :=
  f.payload.length ≤ 118

/-- A well-formed command: an arrival brings at least one byte, and a reading fits the 2-byte two's complement number that
carries a reading on the link (11.5). Every other operand is well formed by its type. -/
def Instr.wellFormed : Instr → Bool
  | .frameArrival bytes => !bytes.isEmpty
  | .sampleEvent _ r => decide (-32768 ≤ r) && decide (r ≤ 32767)
  | .gapTimerExpiry | .badKind | .frameSent | .rstnAsserted | .hardwareReset _ _ => true
  | .outletSet | .outletDrop | .profileSet | .barSet | .demand | .rehome | .faultClear => true
  | .poolSet | .profileSwap | .supply | .rebalance | .rangeSet | .mapSet => true
  | .progLoadFirst | .progLoadNext | .progStart | .progStop | .clockSet => true
  | .readOutlet | .readPool | .readProg | .readSensors | .readLog | .readStatus => true
  | .noticeAck | .noticeMask | .reset => true
  | .roundTimerExpiry _ | .capacityStalenessExpiry | .stalenessTimerExpiry _ | .warmTimerExpiry _ => true
  | .clockTick | .moveTimerExpiry _ | .checkTimerExpiry _ | .pauseTimerExpiry _ | .limitEvent _ _ _ => true
  | .bhoAssertion _ | .bhoRelease _ => true
  | .reachTimerExpiry _ | .holdTimerExpiry _ | .gapTimerExpiryProg _ => true

end Sys2Proof
end

