-- ==== Sys2Proof/Decode.lean ====
section
/-! DEFINITION. Which row of the table a word or a request frame calls for. No row of the table gives bits, so no word
spells a command; what the part itself decodes is the KIND of the frame at the head of the request queue, by the
request catalogue of 11.4. -/

namespace Sys2Proof

/-- The command that a word spells by the table's bits: none, since the table gives no row any bits. -/
def decodeTableWord (_nbits _w : Nat) : Option Instr :=
  none

/-- KIND of PROG-LOAD, whose two parts are two rows of the table (11.4). -/
def progLoadKind : Nat := 0x0E

/-- The request catalogue of 11.4: KIND codes and the rows they call for. PROG-LOAD stands with its FIRST row. -/
def catalogue : List (Nat × Instr) :=
  [(0x01, .outletSet), (0x02, .outletDrop), (0x03, .profileSet), (0x04, .barSet), (0x05, .demand), (0x06, .rehome),
   (0x07, .faultClear), (0x08, .poolSet), (0x09, .profileSwap), (0x0A, .supply), (0x0B, .rebalance), (0x0C, .rangeSet),
   (0x0D, .mapSet), (0x0E, .progLoadFirst), (0x0F, .progStart), (0x10, .progStop), (0x11, .clockSet), (0x12, .readOutlet),
   (0x13, .readPool), (0x14, .readProg), (0x15, .readSensors), (0x16, .readLog), (0x17, .readStatus), (0x18, .noticeAck),
   (0x19, .noticeMask), (0x1A, .reset)]

/-- The row of a KIND; a KIND that names no request calls for BAD_KIND (R180, step 1). -/
def kindRow (k : Nat) : Instr :=
  match catalogue.find? (fun e => e.1 == k) with
  | some e => e.2
  | none => .badKind

/-- The part code of a PROG-LOAD frame: the second payload byte (11.5). -/
def partCode (payload : List Byte) : Nat :=
  (payload.getD 1 0).toNat

/-- The row that executes a frame. A PROG-LOAD with part code 1 is a NEXT part; one with any other part code, the unknown
ones included, reaches the FIRST row, whose rule R138 refuses an unknown code RANGE (R180). -/
def requestRow (f : Frame) : Instr :=
  if f.kind.toNat = progLoadKind ∧ partCode f.payload = 1 then .progLoadNext else kindRow f.kind.toNat

end Sys2Proof
end

