-- ==== Sys2Proof/Machine/State.lean ====
section
/-! DEFINITION. Everything the part remembers, as plain data, block by block, with each block's reset values, and the
state right after hardware reset. An output line (OPEN, CLOSE, ATTN, BHA) has no field: it is read off the state that
drives it (Machine/Flags.lean). -/

namespace Sys2Proof.Machine

/-! ### Shared names -/

/-- Why a command could fault: never. The spec gives every command an effect in every state and calls none undefined, so
the type has no constructor: no command raises a fault, which is safe. -/
inductive Fault where
deriving DecidableEq, Repr

/-- Why a command could be refused by the model. -/
inductive Refusal where
  /-- A row of the table without a meaning in the model, named by its mnemonic. Raised by `exec` alone and, in this model,
  by no arm; safe, since the model then claims nothing. -/
  | notModelled (mnemonic : String)
deriving DecidableEq, Repr

/-- A countdown: none = stopped, some n = running with n of its unit (seconds or milliseconds) remaining. A running timer
with 0 remaining has run out and its expiry is due. -/
abbrev Timer := Option Nat

/-- Service classes, highest priority first (1.3). -/
inductive ServiceClass where
  | sanitary
  | process
  | guest
  | deferrable
deriving DecidableEq, Repr

/-- A profile set, and the active bank of a pool that names it (R3). -/
inductive ProfileBank where
  | a
  | b
deriving DecidableEq, Repr

/-- The four travel faults (7.2). -/
inductive FaultKind where
  | noClosedLimit
  | noOpenLimit
  | stuck
  | bothLimits
deriving DecidableEq, Repr

/-! ### Outlet Table -/

/-- The fixed part of an outlet record (1.2). -/
structure FixedPart where
  pool : Pool
  ratedKw : Nat
  strokeS : Nat
  fallbackKw : Nat
  autoRecover : Bool
  warmTemp : Int
  warmMaxS : Nat
deriving DecidableEq, Repr

/-- One profile set (1.3). -/
structure Profile where
  cls : ServiceClass
  floorKw : Nat
  maxKw : Nat
  weight : Nat
  warmKw : Nat
  tolerance : Nat
deriving DecidableEq, Repr

/-- The bar set; true = SET (1.4). -/
structure Bars where
  host : Bool
  prog : Bool
  all : Bool
deriving DecidableEq, Repr

/-- STATE of a present outlet record (1.6). UNCONFIGURED is the absence of the record (R1). -/
inductive OutletState where
  | homing
  | idle
  | warming
  | serving
  | held
  | locked
  | faulted
deriving DecidableEq, Repr

/-- A present outlet record: fixed part, profile sets, bar set and dynamic part (1.2 to 1.5), and LAST_FAULT (R126,
none = NONE). -/
structure Outlet where
  fixed : FixedPart
  setA : Profile
  setB : Profile
  bars : Bars
  state : OutletState
  grant : Nat
  effDemand : Nat
  assumedDraw : Nat
  feederOf : Option HwPool
  feederDemand : Nat
  warmTimer : Timer
  recovery : Bool
  lastFault : Option FaultKind
deriving DecidableEq, Repr

/-! ### Demand Intake and Curtailment Monitor -/

/-- A host demand record in its three conditions (R71): ABSENT; CURRENT with VALUE and the remaining seconds of its
staleness timer; STALE with VALUE and the timer stopped. -/
inductive HostDemand where
  | absent
  | current (kw : Nat) (remaining : Nat)
  | stale (kw : Nat)
deriving DecidableEq, Repr

/-- Tolerance counter and FLOOR_CUT flag of a channel (5.1). -/
structure Curtailment where
  counter : Nat
  floorCut : Bool
deriving DecidableEq, Repr

/-- KIND of a log entry (5.3). -/
inductive LogKind where
  | curtailed
  | restored
  | floorCut
deriving DecidableEq, Repr

/-- A curtailment log entry (5.3). -/
structure LogEntry where
  minute : Nat
  second : Nat
  channel : Channel
  pool : Pool
  cls : ServiceClass
  kind : LogKind
  e : Nat
  grant : Nat
deriving DecidableEq, Repr

/-- The curtailment log, oldest entry first, and its LOST flag (R89). -/
structure CurtailLog where
  entries : List LogEntry
  lost : Bool
deriving DecidableEq, Repr

/-! ### Pool Controllers -/

/-- The figures of a capacity computation: LAST_B, LAST_A, LAST_K, LAST_H and LAST_C (2.1). -/
structure Figures where
  b : Nat
  a : Nat
  k : Nat
  h : Nat
  c : Nat
deriving DecidableEq, Repr

/-- The round totals but for ROUND_COUNT (2.1). -/
structure Totals where
  sumE : Nat
  sumGrant : Nat
  eligibleCount : Nat
  curtailedCount : Nat
deriving DecidableEq, Repr

/-- The five settings every pool has (2.1). -/
structure PoolSettings where
  enable : Bool
  periodS : Nat
  reservePct : Nat
  demandStaleS : Nat
  deadband : Nat
deriving DecidableEq, Repr

/-- The parts of a pool record that all three pools hold (R26). -/
structure PoolRecord where
  settings : PoolSettings
  activeBank : ProfileBank
  swapPending : Bool
  roundTimer : Timer
  figures : Figures
  totals : Totals
  roundCount : Nat
deriving DecidableEq, Repr

/-- The five settings marked STEAM (2.1). -/
structure SteamSettings where
  capStaleS : Nat
  capFallbackPct : Nat
  pLow : Nat
  pTrip : Nat
  pFaultFactor : Nat
deriving DecidableEq, Repr

/-- What the STEAM record holds besides (2.1). -/
structure SteamPart where
  settings : SteamSettings
  cd : Nat
  capTimer : Timer
  capStale : Bool
deriving DecidableEq, Repr

/-- What an HW record holds besides (2.1): FEEDER (none = NONE) and the three other settings marked HW. -/
structure HwPart where
  feeder : Option Channel
  coilYieldPct : Nat
  storeKw : Nat
  storeTemp : Int
deriving DecidableEq, Repr

/-- The three pool records (R26). -/
structure Pools where
  steam : PoolRecord
  hw1 : PoolRecord
  hw2 : PoolRecord
  steamPart : SteamPart
  hw1Part : HwPart
  hw2Part : HwPart
deriving DecidableEq, Repr

/-! ### Drive Unit and Hand-off Monitor -/

/-- The direction of a move or of a move need; also the two tiers of the motion queue (R98, R100). -/
inductive MoveDir where
  | closing
  | opening
deriving DecidableEq, Repr

/-- MOVE_KIND of a channel that drives (6.1). -/
inductive MoveKind where
  | intermediate
  | toClosed
  | toOpen
  | homing
deriving DecidableEq, Repr

/-- A move in progress: its direction (MOTION), MOVE_KIND, the milliseconds its move timer still has, the milliseconds
driven since the leg start, the move stroke, and the check timer (6.1). -/
structure Move where
  dir : MoveDir
  kind : MoveKind
  timer : Nat
  elapsed : Nat
  stroke : Nat
  check : Timer
deriving DecidableEq, Repr

/-- The position record of a channel (6.1). MOTION is STILL exactly when there is no move; QUEUED is read off the motion
queue. -/
structure Position where
  est : Nat
  known : Bool
  target : Option Nat
  move : Option Move
  homeReq : Bool
  travel : Nat
  drift : Bool
  pause : Timer
deriving DecidableEq, Repr

/-- The Drive Unit: the position records, the motion queue as its closing tier followed by its opening tier (R100), and
the levels of the limit inputs (true = active). A drive slot is held exactly by each channel that has a move (R102). -/
structure Drive where
  positions : Table Position 48
  closing : List Channel
  opening : List Channel
  olim : Table Bool 48
  clim : Table Bool 48
deriving DecidableEq, Repr

/-- The Hand-off Monitor: the levels of the BHO inputs and HANDED_OFF of each bank (7.4). -/
structure Handoff where
  bho : Table Bool 6
  handedOff : Table Bool 6
deriving DecidableEq, Repr

/-! ### Duty Program Unit -/

/-- A program step (8.1); TARGET_TEMP 0 = the step needs no temperature. -/
structure Step where
  channel : Channel
  kw : Nat
  cls : ServiceClass
  targetTemp : Int
  reachMin : Nat
  holdMin : Nat
deriving DecidableEq, Repr

/-- Slot states (8.1). -/
inductive SlotState where
  | empty
  | loaded
  | waiting
  | running
  | done
  | faulted
  | stopped
deriving DecidableEq, Repr

/-- Phase of the current step (8.1). -/
inductive Phase where
  | none
  | claiming
  | reaching
  | holding
deriving DecidableEq, Repr

/-- Why a step fails (8.6). -/
inductive FailReason where
  | timeout
  | unstable
  | barred
  | handoff
  | travel
  | sensor
  | noOutlet
  | feeder
deriving DecidableEq, Repr

/-- Result of a step (8.1). -/
inductive StepResult where
  | notRun
  | passed
  | failed (r : FailReason)
deriving DecidableEq, Repr

/-- A program slot: settings, its steps of the store in order (STEP_COUNT is their number), and run state (8.1).
`start`: none = IMMEDIATE. -/
structure ProgSlot where
  steps : List Step
  loops : Nat
  start : Option Nat
  intervalMin : Nat
  continueOnFault : Bool
  state : SlotState
  loopsLeft : Nat
  waitMinute : Option Nat
  loopStart : Nat
  curStep : Nat
  phase : Phase
  reach : Timer
  hold : Timer
  gap : Timer
  dips : Nat
  faultsSeen : Bool
  results : List StepResult
deriving DecidableEq, Repr

/-- The holder of an outlet's claim: slot, step index and claim demand (R146). -/
structure Holder where
  slot : SlotId
  step : Nat
  kw : Nat
deriving DecidableEq, Repr

/-- Claim and claim queue of an outlet, head first (R144). -/
structure Claim where
  holder : Option Holder
  waiters : List SlotId
deriving DecidableEq, Repr

/-- The Duty Program Unit. -/
structure Duty where
  slots : Table ProgSlot 4
  claims : Table Claim 48
deriving DecidableEq, Repr

/-! ### Sensor Scanner, Plant Clock, Branch Address Translator, Link Interface -/

/-- An input record (9.1). -/
structure Sensor where
  lastGood : Int
  faulted : Bool
  badRun : Nat
  goodRun : Nat
deriving DecidableEq, Repr

/-- The Plant Clock (9.5). -/
structure PlantClock where
  minute : Nat
  second : Nat
  isSet : Bool
deriving DecidableEq, Repr

/-- A branch range record (10.2); `mapped`: MODE is MAPPED. -/
structure BranchRange where
  enable : Bool
  base : Nat
  size : Nat
  mapped : Bool
  chanBase : Nat
  mapBase : Nat
deriving DecidableEq, Repr

/-- A channel map entry (10.2). -/
structure MapEntry where
  valid : Bool
  channel : Channel
deriving DecidableEq, Repr

/-- The Branch Address Translator. -/
structure Translator where
  ranges : Table BranchRange 4
  map : Table MapEntry 128
deriving DecidableEq, Repr

/-- Link speeds (R176). -/
inductive LinkSpeed where
  | b19200
  | b57600
  | b115200
  | b230400
deriving DecidableEq, Repr

/-- The eight notice kinds (R183). -/
inductive NoticeKind where
  | curtail
  | logLoss
  | program
  | travel
  | handoff
  | sensor
  | profile
  | stale
deriving DecidableEq, Repr

/-- The Link Interface. `rxBuf`: none = HUNTING, some bytes = RECEIVING with the bytes taken after the START (R178).
`notices` and `mask` are the pending set and the mask in the bit order of 11.5. `resetDue`: a RESET request has been
executed and its DONE reply has not yet been sent (R188). -/
structure Link where
  speed : LinkSpeed
  rxBuf : Option (List Byte)
  rxGap : Timer
  queue : List Frame
  tx : List Frame
  resetDue : Bool
  notices : Byte
  mask : Byte
deriving DecidableEq, Repr

end Sys2Proof.Machine

namespace Sys2Proof.Machine

/-! ### The state -/

/-- The state of the part, and the queue of the commands that wait (the model's own). `msPhase` counts the ticks of the
millisecond timebase since the last tick of the one-second timebase (R103). `rstLow`: RSTn is held low (R189). -/
structure State where
  rstLow : Bool
  link : Link
  xlat : Translator
  outlets : Table (Option Outlet) 48
  pools : Pools
  demands : Table HostDemand 48
  curtail : Table Curtailment 48
  log : CurtailLog
  drive : Drive
  handoff : Handoff
  duty : Duty
  sensors : Table Sensor 51
  clock : PlantClock
  msPhase : Nat
  pending : List Instr
deriving DecidableEq, Repr

/-! ### Reset values, block by block -/

/-- R189, R188: queue and transmit order empty, receiver HUNTING, nothing pending, every kind UNMASKED. -/
def resetLink (speed : LinkSpeed) : Link :=
  { speed, rxBuf := none, rxGap := none, queue := [], tx := [], resetDue := false, notices := 0, mask := 0 }

/-- R175. -/
def resetTranslator : Translator :=
  { ranges := Table.fill 4 { enable := false, base := 0, size := 1, mapped := false, chanBase := 0, mapBase := 0 },
    map := Table.fill 128 { valid := false, channel := 0 } }

/-- R46: what the three pools share; LAST_K is 0 for STEAM and 1000 for the HW pools. -/
def resetPoolRecord (lastK : Nat) : PoolRecord :=
  { settings := { enable := false, periodS := 10, reservePct := 0, demandStaleS := 300, deadband := 20 },
    activeBank := .a, swapPending := false, roundTimer := none,
    figures := { b := 0, a := 0, k := lastK, h := 0, c := 0 },
    totals := { sumE := 0, sumGrant := 0, eligibleCount := 0, curtailedCount := 0 }, roundCount := 0 }

/-- R46: the HW fields. -/
def resetHwPart : HwPart :=
  { feeder := none, coilYieldPct := 85, storeKw := 0, storeTemp := 550 }

/-- R46. -/
def resetPools : Pools :=
  { steam := resetPoolRecord 0, hw1 := resetPoolRecord 1000, hw2 := resetPoolRecord 1000,
    steamPart :=
      { settings := { capStaleS := 120, capFallbackPct := 50, pLow := 700, pTrip := 500, pFaultFactor := 500 },
        cd := 0, capTimer := none, capStale := false },
    hw1Part := resetHwPart, hw2Part := resetHwPart }

/-- R118. -/
def resetPosition : Position :=
  { est := 0, known := false, target := none, move := none, homeReq := false, travel := 0, drift := false, pause := none }

/-- R118, with the limit inputs at the levels they have. -/
def resetDrive (olim clim : Table Bool 48) : Drive :=
  { positions := Table.fill 48 resetPosition, closing := [], opening := [], olim, clim }

/-- R135: HANDED_OFF of each bank starts from its BHO input. -/
def resetHandoff (bho : Table Bool 6) : Handoff :=
  { bho, handedOff := bho }

/-- R157. DESIGN CHOICE (log 9), unsafe: the settings of an EMPTY slot, to which the spec gives no reset value, are LOOPS 0,
START IMMEDIATE, INTERVAL_MIN 0 and CONTINUE_ON_FAULT NO. -/
def resetSlot : ProgSlot :=
  { steps := [], loops := 0, start := none, intervalMin := 0, continueOnFault := false, state := .empty, loopsLeft := 0,
    waitMinute := none, loopStart := 0, curStep := 0, phase := .none, reach := none, hold := none, gap := none, dips := 0,
    faultsSeen := false, results := [] }

/-- R157: every slot EMPTY, every claim free, every claim queue empty. -/
def resetDuty : Duty :=
  { slots := Table.fill 4 resetSlot, claims := Table.fill 48 { holder := none, waiters := [] } }

/-- R166. -/
def resetSensor : Sensor :=
  { lastGood := 0, faulted := false, badRun := 0, goodRun := 0 }

/-- R166. -/
def resetClock : PlantClock :=
  { minute := 0, second := 0, isSet := false }

/-- Every block at its reset values, given what a reset does not itself fix: the link speed, the levels of the BHO, OLIM
and CLIM inputs, the phase of the timebase, and the commands that wait. -/
def afterReset (speed : LinkSpeed) (bho : Table Bool 6) (olim clim : Table Bool 48) (msPhase : Nat)
    (pending : List Instr) : State :=
  { rstLow := false, link := resetLink speed, xlat := resetTranslator, outlets := Table.fill 48 none,
    pools := resetPools, demands := Table.fill 48 .absent,
    curtail := Table.fill 48 { counter := 0, floorCut := false }, log := { entries := [], lost := false },
    drive := resetDrive olim clim, handoff := resetHandoff bho, duty := resetDuty,
    sensors := Table.fill 51 resetSensor, clock := resetClock, msPhase, pending }

/-- The part right after hardware reset. DESIGN CHOICE (log 8), unsafe: the levels of the inputs, which the plant sets and
not the part, are low straps (19200 bit/s), no bank handed off and no limit switch made. -/
def State.reset : State :=
  afterReset .b19200 (Table.fill 6 false) (Table.fill 48 false) (Table.fill 48 false) 0 []

end Sys2Proof.Machine
end

