-- ==== Sys2Proof/Machine/Ops.lean ====
section
/-! DEFINITION. The named operations over the state that every block shares: reading and writing one record, timers, the
byte encodings of 11.5, the CRC of R177, frames that become ready (R182), and how a request is taken (R180). -/

namespace Sys2Proof.Machine

/-! ### Records -/

/-- The outlet record of a channel; none = absent. -/
def State.outlet (s : State) (c : Channel) : Option Outlet :=
  s.outlets.get c

/-- Write or remove an outlet record. -/
def State.setOutlet (s : State) (c : Channel) (o : Option Outlet) : State :=
  { s with outlets := s.outlets.set c o }

/-- Change the outlet record of a channel where it is present. -/
def State.modifyOutlet (s : State) (c : Channel) (f : Outlet → Outlet) : State :=
  s.setOutlet c ((s.outlet c).map f)

/-- The host demand record of a channel. -/
def State.demand (s : State) (c : Channel) : HostDemand :=
  s.demands.get c

def State.setDemand (s : State) (c : Channel) (d : HostDemand) : State :=
  { s with demands := s.demands.set c d }

/-- Tolerance counter and FLOOR_CUT flag of a channel. -/
def State.curtailment (s : State) (c : Channel) : Curtailment :=
  s.curtail.get c

def State.setCurtailment (s : State) (c : Channel) (x : Curtailment) : State :=
  { s with curtail := s.curtail.set c x }

/-- The pool record of a pool. -/
def State.pool (s : State) : Pool → PoolRecord
  | .steam => s.pools.steam
  | .hw .hw1 => s.pools.hw1
  | .hw .hw2 => s.pools.hw2

def State.setPool (s : State) (p : Pool) (r : PoolRecord) : State :=
  match p with
  | .steam => { s with pools := { s.pools with steam := r } }
  | .hw .hw1 => { s with pools := { s.pools with hw1 := r } }
  | .hw .hw2 => { s with pools := { s.pools with hw2 := r } }

/-- The part of a pool record that only the HW pools have. -/
def State.hwPart (s : State) : HwPool → HwPart
  | .hw1 => s.pools.hw1Part
  | .hw2 => s.pools.hw2Part

def State.setHwPart (s : State) (h : HwPool) (r : HwPart) : State :=
  match h with
  | .hw1 => { s with pools := { s.pools with hw1Part := r } }
  | .hw2 => { s with pools := { s.pools with hw2Part := r } }

def State.setSteamPart (s : State) (r : SteamPart) : State :=
  { s with pools := { s.pools with steamPart := r } }

/-- The position record of a channel. -/
def State.position (s : State) (c : Channel) : Position :=
  s.drive.positions.get c

def State.setPosition (s : State) (c : Channel) (p : Position) : State :=
  { s with drive := { s.drive with positions := s.drive.positions.set c p } }

/-- A program slot. -/
def State.slot (s : State) (i : SlotId) : ProgSlot :=
  s.duty.slots.get i

def State.setSlot (s : State) (i : SlotId) (x : ProgSlot) : State :=
  { s with duty := { s.duty with slots := s.duty.slots.set i x } }

/-- Claim and claim queue of an outlet. -/
def State.claim (s : State) (c : Channel) : Claim :=
  s.duty.claims.get c

def State.setClaim (s : State) (c : Channel) (x : Claim) : State :=
  { s with duty := { s.duty with claims := s.duty.claims.set c x } }

/-- The record of a sensor input. -/
def State.sensor (s : State) (i : InputId) : Sensor :=
  s.sensors.get i

def State.setSensor (s : State) (i : InputId) (x : Sensor) : State :=
  { s with sensors := s.sensors.set i x }

/-- The branch temperature input of a channel: input n for channel n (9.1). -/
def branchInput (c : Channel) : InputId :=
  ⟨c.val, Nat.lt_of_lt_of_le c.isLt (by decide)⟩

/-- HANDED_OFF of the channel's bank (R129). -/
def State.handedOff (s : State) (c : Channel) : Bool :=
  s.handoff.handedOff.get (bankOf c)

/-- The level of the channel's closed limit input. -/
def State.climActive (s : State) (c : Channel) : Bool :=
  s.drive.clim.get c

/-- The level of the channel's open limit input. -/
def State.olimActive (s : State) (c : Channel) : Bool :=
  s.drive.olim.get c

/-! ### Timers -/

/-- A running timer loses `n` of its units and stays at 0 once run out; a stopped one stays stopped. -/
def tickTimer (n : Nat) (t : Timer) : Timer :=
  t.map (· - n)

/-- The timer runs and has run out: its expiry can be taken (log 2). A stopped timer does not expire (R64). -/
def timerDue (t : Timer) : Bool :=
  t == some 0

/-! ### Byte encodings of 11.5 -/

/-- A number in one byte. -/
def byte (n : Nat) : Byte :=
  BitVec.ofNat 8 n

/-- A number in two bytes, high byte first. -/
def be16 (n : Nat) : List Byte :=
  [byte (n / 256), byte n]

/-- A number in three bytes, high byte first. -/
def be24 (n : Nat) : List Byte :=
  [byte (n / 65536), byte (n / 256), byte n]

/-- A signed number in two bytes, two's complement. -/
def beInt (z : Int) : List Byte :=
  be16 (z % 65536).toNat

/-- YES and SET are 1, NO and CLEAR are 0. -/
def flagByte (b : Bool) : Byte :=
  if b then 1 else 0

/-- A 2-byte timer, minute or target: 0xFFFF where it is stopped or none. -/
def be16Opt (t : Option Nat) : List Byte :=
  match t with
  | some n => be16 n
  | none => [0xFF, 0xFF]

/-- A 1-byte timer: 0xFF where it is stopped. -/
def byteOpt (t : Option Nat) : Byte :=
  match t with
  | some n => byte n
  | none => 0xFF

/-- The byte at an offset of a payload. -/
def readByte (p : List Byte) (i : Nat) : Nat :=
  (p.getD i 0).toNat

/-- The 2-byte number at an offset, high byte first. -/
def readWord (p : List Byte) (i : Nat) : Nat :=
  readByte p i * 256 + readByte p (i + 1)

/-- The 2-byte two's complement number at an offset. -/
def readInt (p : List Byte) (i : Nat) : Int :=
  if readWord p i < 32768 then (readWord p i : Int) else (readWord p i : Int) - 65536

/-! ### CRC-16 and the bytes of a frame (R177) -/

/-- One bit of the CRC register's shift: polynomial 0x1021, most significant bit first. -/
def crcShift (r : BitVec 16) : BitVec 16 :=
  if r.msb then (r <<< 1) ^^^ 0x1021#16 else r <<< 1

/-- The CRC register after one more byte. -/
def crcByte (r : BitVec 16) (b : Byte) : BitVec 16 :=
  crcShift (crcShift (crcShift (crcShift (crcShift (crcShift (crcShift (crcShift
    (r ^^^ (b.setWidth 16 <<< 8)))))))))

/-- CRC-16 of a run of bytes: starting value 0xFFFF, no final inversion. -/
def crc16 (bs : List Byte) : BitVec 16 :=
  bs.foldl crcByte 0xFFFF#16

/-- What the CRC of a frame covers: LEN, KIND, TAG and the payload. -/
def frameBody (f : Frame) : List Byte :=
  byte (f.payload.length + 2) :: f.kind :: f.tag :: f.payload

/-- The bytes of a frame on the line: START, LEN, KIND, TAG, payload, CRC high byte first. -/
def frameBytes (f : Frame) : List Byte :=
  Config.startByte :: (frameBody f ++ be16 (crc16 (frameBody f)).toNat)

/-! ### Frames that become ready (R182) and the reply to a request (R181) -/

/-- A frame becomes ready: it joins the transmit order behind the frames already there. -/
def makeReady (f : Frame) (s : State) : State :=
  { s with link := { s.link with tx := s.link.tx ++ [f] } }

/-- Status codes (R181). -/
inductive Status where
  | done
  | doneClamped
  | queueFull
  | badKind
  | badLength
  | range
  | noOutlet
  | unmapped
  | barred
  | state
  | pending
  | conflict
  | overlap
  | noSpace
  | clockUnset
deriving DecidableEq, Repr

/-- The STATUS byte (R181). -/
def Status.code : Status → Byte
  | .done => 0x00
  | .doneClamped => 0x01
  | .queueFull => 0x02
  | .badKind => 0x03
  | .badLength => 0x04
  | .range => 0x05
  | .noOutlet => 0x06
  | .unmapped => 0x07
  | .barred => 0x08
  | .state => 0x09
  | .pending => 0x0A
  | .conflict => 0x0B
  | .overlap => 0x0C
  | .noSpace => 0x0D
  | .clockUnset => 0x0E

/-- What an execution answers: a status and the reply's data. -/
structure Answer where
  status : Status
  data : List Byte
deriving DecidableEq, Repr

/-- A refusal without data. -/
def Answer.refuse (st : Status) : Answer :=
  ⟨st, []⟩

/-- DONE_CLAMPED where a value was clamped, DONE otherwise. -/
def doneStatus (clamped : Bool) : Status :=
  if clamped then .doneClamped else .done

/-- The reply to a frame: KIND with its top bit set, the TAG, STATUS, data (R181). -/
def replyTo (f : Frame) (a : Answer) : Frame :=
  { kind := f.kind ||| 0x80, tag := f.tag, payload := a.status.code :: a.data }

/-! ### Which payloads fit a row (R180 step 2, 11.4) -/

/-- The lengths that fit a PROG-LOAD FIRST part: 8 + 9k with k 0 to 12. -/
def fitsFirst (n : Nat) : Bool :=
  decide (8 ≤ n) && (n - 8) % 9 == 0 && decide ((n - 8) / 9 ≤ 12)

/-- The lengths that fit a PROG-LOAD NEXT part: 2 + 9k with k 1 to 12. -/
def fitsNext (n : Nat) : Bool :=
  decide (11 ≤ n) && (n - 2) % 9 == 0 && decide ((n - 2) / 9 ≤ 12)

/-- The payload length fits the row, as the catalogue's payload column gives it. An unknown pool code of POOL-SET and an
unknown part code of PROG-LOAD fit at either length. -/
def fits (row : Instr) (p : List Byte) : Bool :=
  let n := p.length
  match row with
  | .outletSet => n == 23
  | .outletDrop | .rehome | .faultClear | .readOutlet | .supply | .readSensors => n == 2
  | .profileSet => n == 12
  | .barSet => n == 5
  | .demand => n % 4 == 0 && decide (4 ≤ n) && decide (n ≤ 64)
  | .poolSet =>
    match readByte p 0 with
    | 0 => n == 16
    | 1 | 2 => n == 14
    | _ => n == 16 || n == 14
  | .profileSwap | .rebalance | .progStart | .progStop | .readPool | .readProg | .noticeAck | .noticeMask => n == 1
  | .rangeSet => n == 9
  | .mapSet => n % 2 == 1 && decide (n ≤ 33)
  | .progLoadFirst => fitsFirst n || (readByte p 1 != 0 && fitsNext n)
  | .progLoadNext => fitsNext n
  | .clockSet => n == 3
  | .readLog | .readStatus | .reset => n == 0
  | .badKind => true
  | .frameArrival _ | .gapTimerExpiry | .frameSent | .rstnAsserted | .hardwareReset _ _ => false
  | .roundTimerExpiry _ | .capacityStalenessExpiry | .stalenessTimerExpiry _ | .warmTimerExpiry _ => false
  | .sampleEvent _ _ | .clockTick | .moveTimerExpiry _ | .checkTimerExpiry _ | .pauseTimerExpiry _ => false
  | .limitEvent _ _ _ | .bhoAssertion _ | .bhoRelease _ => false
  | .reachTimerExpiry _ | .holdTimerExpiry _ | .gapTimerExpiryProg _ => false

/-! ### Taking a request and taking an event -/

/-- The part takes no event while RSTn is held low (R189). Every meaning but those of the input lines and of the reset
stands behind this. -/
def running (f : State → State) (s : State) : Host.Outcome State Fault Refusal :=
  .next (if s.rstLow then s else f s)

/-- Execution of the frame at the head of the request queue, by the row it calls for (R180). It takes place when the
transmit order is empty; the frame leaves the queue, its payload length is checked, the owning block answers, and the reply
becomes ready. Where no frame is taken, or the head frame calls for another row, the step does not occur (log 1). -/
def execute (row : Instr) (body : List Byte → State → Answer × State) (s : State) : State :=
  match s.link.tx, s.link.queue with
  | [], f :: rest =>
    if requestRow f = row then
      let s₁ : State := { s with link := { s.link with queue := rest } }
      if fits row f.payload then
        let r := body f.payload s₁
        makeReady (replyTo f r.1) r.2
      else makeReady (replyTo f (.refuse .badLength)) s₁
    else s
  | _, _ => s

/-- A request row as a command. -/
def request (row : Instr) (body : List Byte → State → Answer × State) (s : State) : Host.Outcome State Fault Refusal :=
  running (execute row body) s

/-! ### The two resets -/

/-- Every block takes its reset values; the link speed, the input levels and the timebase are kept (R188). -/
def resetPart (s : State) : State :=
  afterReset s.link.speed s.handoff.bho s.drive.olim s.drive.clim s.msPhase s.pending

end Sys2Proof.Machine
end

