-- ==== Sys2Proof/Machine/Flags.lean ====
section
/-! DEFINITION. The notice pending set and mask (R183 to R186), the conditions the rules name (eligible, driving, active
profile set), and the output lines as they follow from the state (R96, R129, R184, R189). -/

namespace Sys2Proof.Machine

/-! ### Notices -/

/-- The bit of a kind in every notice byte: from the least significant, CURTAIL, LOGLOSS, PROGRAM, TRAVEL, HANDOFF, SENSOR,
PROFILE, STALE (11.5). -/
def NoticeKind.bit : NoticeKind → Byte
  | .curtail => 0x01
  | .logLoss => 0x02
  | .program => 0x04
  | .travel => 0x08
  | .handoff => 0x10
  | .sensor => 0x20
  | .profile => 0x40
  | .stale => 0x80

/-- The NOTICE frame: KIND 0xE0, TAG 0x00, the pending set and the mask as they stand, and the CAUSE (R183, 11.5). -/
def noticeFrame (notices mask cause : Byte) : Frame :=
  { kind := 0xE0, tag := 0x00, payload := [notices, mask, cause] }

/-- The kind is pending. -/
def State.isPending (s : State) (k : NoticeKind) : Bool :=
  s.link.notices &&& k.bit != 0

/-- The kind is MASKED. -/
def State.isMasked (s : State) (k : NoticeKind) : Bool :=
  s.link.mask &&& k.bit != 0

/-- A block raises a kind (R183): a kind that was not pending becomes pending, and an unmasked one makes a NOTICE frame
ready at that raise; a kind already pending changes nothing. -/
def raise (k : NoticeKind) (s : State) : State :=
  if s.isPending k then s
  else
    let s₁ : State := { s with link := { s.link with notices := s.link.notices ||| k.bit } }
    if s.isMasked k then s₁ else makeReady (noticeFrame s₁.link.notices s₁.link.mask k.bit) s₁

/-! ### Conditions -/

/-- An outlet is eligible in IDLE, WARMING and SERVING (R4). -/
def OutletState.eligible : OutletState → Bool
  | .idle | .warming | .serving => true
  | .homing | .held | .locked | .faulted => false

/-- The channel's outlet is present and eligible. -/
def State.isEligible (s : State) (c : Channel) : Bool :=
  match s.outlet c with
  | some o => o.state.eligible
  | none => false

/-- The profile set a bank names. -/
def Outlet.profile (o : Outlet) : ProfileBank → Profile
  | .a => o.setA
  | .b => o.setB

/-- The active set of an outlet: the set named by the active bank of its pool (R3). -/
def State.activeProfile (s : State) (o : Outlet) : Profile :=
  o.profile (s.pool o.fixed.pool).activeBank

/-- The channel drives, and so holds a drive slot (R102). -/
def State.isDriving (s : State) (c : Channel) : Bool :=
  (s.position c).move.isSome

/-- Drive slots held (R102). -/
def State.slotsHeld (s : State) : Nat :=
  ((indices 48).filter s.isDriving).length

/-- A slot is free (R102). -/
def State.slotFree (s : State) : Bool :=
  s.slotsHeld < Config.driveSlots

/-- QUEUED: the motion queue tier that holds the channel's entry (6.1). -/
def State.queuedTier (s : State) (c : Channel) : Option MoveDir :=
  if s.drive.closing.contains c then some .closing
  else if s.drive.opening.contains c then some .opening
  else none

/-- The step of the store a slot has in progress. -/
def ProgSlot.currentStep (x : ProgSlot) : Option Step :=
  if x.phase = .none ∨ x.curStep = 0 then none else x.steps[x.curStep - 1]?

/-- A step with a TARGET_TEMP other than 0 needs a temperature (8.1). -/
def Step.needsTemp (st : Step) : Bool :=
  st.targetTemp != 0

/-- Steps held by the slots that are not EMPTY (R136). -/
def State.stepsStored (s : State) : Nat :=
  ((indices 4).map fun i => (s.slot i).steps.length).sum

/-- The store's free count (R136). -/
def State.freeSteps (s : State) : Nat :=
  Config.storeSteps - s.stepsStored

/-! ### Output lines -/

/-- OPEN output of a channel: on while MOTION is OPENING and RSTn is high (R96, R189). -/
def State.openOutput (s : State) (c : Channel) : Bool :=
  !s.rstLow && (s.position c).move.any (fun m => m.dir == .opening)

/-- CLOSE output of a channel: on while MOTION is CLOSING and RSTn is high (R96, R189). -/
def State.closeOutput (s : State) (c : Channel) : Bool :=
  !s.rstLow && (s.position c).move.any (fun m => m.dir == .closing)

/-- ATTN: asserted exactly when the pending set contains an unmasked kind, and negated while RSTn is low (R184, R189). -/
def State.attnOutput (s : State) : Bool :=
  !s.rstLow && (s.link.notices &&& ~~~s.link.mask != 0)

/-- BHA output of a bank: follows HANDED_OFF, and is negated while RSTn is low (R129, R189). -/
def State.bhaOutput (s : State) (b : BankId) : Bool :=
  !s.rstLow && s.handoff.handedOff.get b

/-- The bytes the transmitter is sending on LTX: those of the oldest ready frame; none while LTX is idle at the stop level
(R182, R189). -/
def State.ltxOutput (s : State) : List Byte :=
  if s.rstLow then [] else (s.link.tx.head?.map frameBytes).getD []

end Sys2Proof.Machine
end

