-- ==== Sys2Proof/Machine/Operands.lean ====
section
/-! DEFINITION. The operand forms of the requests: outlet addresses and their translation (R167 to R170), the codes of
11.5, and the clamps of the field values (R7, R8, R28, R140). -/

namespace Sys2Proof.Machine

/-! ### Outlet addresses -/

/-- A number that names a channel, or none (R167, R169). -/
def channelOf (n : Nat) : Option Channel :=
  if h : n < 48 then some ⟨n, h⟩ else none

/-- A range that takes part in translation covers the branch address (R168). -/
def BranchRange.hits (r : BranchRange) (a : Nat) : Bool :=
  r.enable && decide (r.base ≤ a) && decide (a < r.base + r.size)

/-- The channel map looked up at an index (R170): UNMAPPED past the map or at an entry with VALID NO. -/
def mapLookup (x : Translator) (i : Nat) : Except Status Channel :=
  if h : i < 128 then
    let e := x.map.get ⟨i, h⟩
    if e.valid then .ok e.channel else .error .unmapped
  else .error .unmapped

/-- A branch address looked up in the range it hits (R168 to R170). -/
def translateBranch (x : Translator) (a : Nat) : Except Status Channel :=
  match x.ranges.toList.find? (fun r => r.hits a) with
  | none => .error .noOutlet
  | some r =>
    if r.mapped then mapLookup x (r.mapBase + (a - r.base))
    else
      match channelOf (r.chanBase + (a - r.base)) with
      | some c => .ok c
      | none => .error .noOutlet

/-- An outlet address converted to a channel or to a refusal code: channel form where the top bit is set, branch form
otherwise (R167). -/
def translate (x : Translator) (addr : Nat) : Except Status Channel :=
  if 32768 ≤ addr then
    match channelOf (addr - 32768) with
    | some c => .ok c
    | none => .error .noOutlet
  else translateBranch x addr

/-- A request that names an outlet: the address at offset 0 of the payload is translated before every other check, and a
failure refuses the request with the code the translator gives (R2). -/
def atOutlet (p : List Byte) (s : State) (f : Channel → Answer × State) : Answer × State :=
  match translate s.xlat (readWord p 0) with
  | .ok c => f c
  | .error st => (.refuse st, s)

/-! ### Codes -/

/-- YES/NO, SET/CLEAR. -/
def flagOf (n : Nat) : Option Bool :=
  match n with
  | 0 => some false
  | 1 => some true
  | _ => none

/-- Pool codes. -/
def poolOf (n : Nat) : Option Pool :=
  match n with
  | 0 => some .steam
  | 1 => some (.hw .hw1)
  | 2 => some (.hw .hw2)
  | _ => none

/-- The code of an HW pool. -/
def hwCode : HwPool → Byte
  | .hw1 => 1
  | .hw2 => 2

/-- The code of a pool. -/
def poolCode : Pool → Byte
  | .steam => 0
  | .hw h => hwCode h

/-- Class codes. -/
def classOf (n : Nat) : Option ServiceClass :=
  match n with
  | 0 => some .sanitary
  | 1 => some .process
  | 2 => some .guest
  | 3 => some .deferrable
  | _ => none

/-- The code of a class. -/
def ServiceClass.code : ServiceClass → Byte
  | .sanitary => 0
  | .process => 1
  | .guest => 2
  | .deferrable => 3

/-- Profile set codes. -/
def bankOfCode (n : Nat) : Option ProfileBank :=
  match n with
  | 0 => some .a
  | 1 => some .b
  | _ => none

/-- The code of a profile set. -/
def ProfileBank.code : ProfileBank → Byte
  | .a => 0
  | .b => 1

/-- The flag a bar action leaves: 0 KEEP, 1 SET, 2 CLEAR; none for any other code (R16, 11.5). -/
def barAction (code : Nat) (old : Bool) : Option Bool :=
  match code with
  | 0 => some old
  | 1 => some true
  | 2 => some false
  | _ => none

/-- A slot number. -/
def slotOf (n : Nat) : Option SlotId :=
  if h : n < 4 then some ⟨n, h⟩ else none

/-- START: 0xFFFF = IMMEDIATE, a minute of the week, or no valid value (R138, 11.5). -/
def startOf (n : Nat) : Option (Option Nat) :=
  if n = 0xFFFF then some none
  else if n < Config.weekMinutes then some (some n)
  else none

/-! ### Field values and their clamps -/

/-- A value clamped to a range. -/
def clampNat (lo hi n : Nat) : Nat :=
  max lo (min hi n)

/-- A temperature clamped to −200 to 2000. -/
def clampTemp (z : Int) : Int :=
  max (-200) (min 2000 z)

/-- The six profile fields as a request carries them, 9 bytes from an offset, with the class already read. -/
def readProfile (p : List Byte) (i : Nat) (cls : ServiceClass) : Profile :=
  { cls, floorKw := readWord p (i + 1), maxKw := readWord p (i + 3), weight := readByte p (i + 5),
    warmKw := readWord p (i + 6), tolerance := readByte p (i + 8) }

/-- Clamps 3 to 7 of R7, with RATED_KW as the limit in steps 3 and 5. -/
def clampProfile (rated : Nat) (x : Profile) : Profile :=
  let maxKw := min x.maxKw rated
  { cls := x.cls, floorKw := min x.floorKw maxKw, maxKw, weight := clampNat 1 15 x.weight, warmKw := min x.warmKw rated,
    tolerance := max 1 x.tolerance }

/-- R8: an HW outlet's WARM_KW is stored as 0. -/
def hwProfile (p : Pool) (x : Profile) : Profile :=
  match p with
  | .steam => x
  | .hw _ => { x with warmKw := 0 }

/-- Clamps 1, 2, 8 and 9 of R7. -/
def clampFixed (x : FixedPart) : FixedPart :=
  let ratedKw := min x.ratedKw 2000
  { x with ratedKw, fallbackKw := min x.fallbackKw ratedKw, warmMaxS := min x.warmMaxS 1800,
           warmTemp := clampTemp x.warmTemp }

/-- R8: an HW outlet's WARM_TEMP and WARM_MAX_S are stored as 0. -/
def hwFixed (x : FixedPart) : FixedPart :=
  match x.pool with
  | .steam => x
  | .hw _ => { x with warmTemp := 0, warmMaxS := 0 }

/-- The clamps of R28 on the five common settings. -/
def clampSettings (x : PoolSettings) : PoolSettings :=
  { enable := x.enable, periodS := clampNat 2 60 x.periodS, reservePct := min x.reservePct 50,
    demandStaleS := clampNat 10 3600 x.demandStaleS, deadband := clampNat 5 100 x.deadband }

/-- The clamps of R28 on the STEAM settings. -/
def clampSteam (x : SteamSettings) : SteamSettings :=
  { capStaleS := clampNat 10 3600 x.capStaleS, capFallbackPct := min x.capFallbackPct 100, pLow := min x.pLow 1600,
    pTrip := min x.pTrip 1600, pFaultFactor := min x.pFaultFactor 1000 }

/-- The clamps of R28 on the HW settings. -/
def clampHw (x : HwPart) : HwPart :=
  { feeder := x.feeder, coilYieldPct := clampNat 50 100 x.coilYieldPct, storeKw := min x.storeKw 2000,
    storeTemp := clampTemp x.storeTemp }

/-- The clamps of R140 on a program step. -/
def clampStep (x : Step) : Step :=
  { x with kw := clampNat 1 2000 x.kw, targetTemp := clampTemp x.targetTemp, reachMin := clampNat 1 240 x.reachMin,
           holdMin := min x.holdMin 240 }

end Sys2Proof.Machine
end

