-- ==== Sys2Proof/Machine/Duty.lean ====
section
/-! DEFINITION. How the steps of the duty programs run within one event (R144 to R154): beginning, taking and passing on
claims, passing, failing, and the end of a pass. One event may set off a chain of these; the chain is a list of tasks,
each of which may put further tasks in front (log 13). The requests and timer events of the unit stand in Programs.lean. -/

namespace Sys2Proof.Machine

/-- Change a program slot. -/
def State.modifySlot (s : State) (i : SlotId) (f : ProgSlot → ProgSlot) : State :=
  s.setSlot i (f (s.slot i))

/-- What is still to be done at the Duty Program Unit within an event. -/
inductive DutyTask where
  /-- The step of this index begins (R145). -/
  | begin_ (i : SlotId) (idx : Nat)
  /-- The current step of the slot takes the claim of the outlet (R146). -/
  | take (c : Channel) (i : SlotId)
  /-- The claim of the outlet, just released, passes to the head of its queue (R146). -/
  | passOn (c : Channel)
  /-- The current step passes (R149). -/
  | pass (i : SlotId)
  /-- The current step fails: its claim or queue entry goes (R153, step 1). -/
  | fail (i : SlotId) (r : FailReason)
  /-- The failed step is recorded and the slot goes on or ends its run (R153, steps 2 to 4). -/
  | settle (i : SlotId) (r : FailReason)
  /-- The slot goes on to its next step or to the end of the list (R149, R153). -/
  | goOn (i : SlotId)
deriving DecidableEq, Repr

/-- The check of R145 that fails a step at its beginning on the outlet, if one does. -/
def beginFailure (c : Channel) (s : State) : Option FailReason :=
  match s.outlet c with
  | none => some .noOutlet
  | some o =>
    if o.feederOf.isSome then some .feeder
    else if o.bars.prog || o.bars.all then some .barred
    else if o.state = .faulted then some .travel
    else if o.state = .held then some .handoff
    else none

/-- A step begins (R145): index, CLAIMING, dip count 0, reach timer; then it fails, waits, or takes the free claim. -/
def beginStep (i : SlotId) (idx : Nat) (s : State) : State × List DutyTask :=
  match (s.slot i).steps[idx - 1]? with
  | none => (s, [])
  | some st =>
    let s₁ := s.modifySlot i fun x =>
      { x with curStep := idx, phase := .claiming, dips := 0, reach := some (st.reachMin * 60), hold := none }
    match beginFailure st.channel s₁ with
    | some r => (s₁, [.fail i r])
    | none =>
      let cl := s₁.claim st.channel
      if cl.holder.isSome then (s₁.setClaim st.channel { cl with waiters := cl.waiters ++ [i] }, [])
      else (s₁, [.take st.channel i])

/-- The claim demand of a step: KW limited to the outlet's RATED_KW as it stands (R146). -/
def claimDemand (c : Channel) (st : Step) (s : State) : Nat :=
  match s.outlet c with
  | some o => min st.kw o.fixed.ratedKw
  | none => st.kw

/-- A step takes the claim (R146): it leaves the queue if it waited, and enters REACHING or HOLDING, or fails with SENSOR.
A hold timer started at 0 expires at once. -/
def takeClaim (c : Channel) (i : SlotId) (s : State) : State × List DutyTask :=
  match (s.slot i).currentStep with
  | none => (s, [])
  | some st =>
    let s₁ := s.setClaim c
      { holder := some { slot := i, step := (s.slot i).curStep, kw := claimDemand c st s },
        waiters := (s.claim c).waiters.filter (· ≠ i) }
    if st.needsTemp then
      if (s.sensor (branchInput c)).faulted then (s₁, [.fail i .sensor])
      else (s₁.modifySlot i fun x => { x with phase := .reaching }, [])
    else
      (s₁.modifySlot i fun x => { x with phase := .holding, reach := none, hold := some (st.holdMin * 60) },
        if st.holdMin = 0 then [.pass i] else [])

/-- A released claim passes to the head of the claim queue, or stays free where nothing waits (R146). -/
def passOnClaim (c : Channel) (s : State) : State × List DutyTask :=
  match (s.claim c).waiters with
  | [] => (s, [])
  | h :: _ => (s, [.take c h])

/-- The slot's step in progress gives up what it has on its outlet: the claim, which then passes on, or its entry of the
claim queue (R153 step 1, R143). A step failed at its beginning has neither. -/
def releaseStep (i : SlotId) (s : State) : State × List DutyTask :=
  match (s.slot i).currentStep with
  | none => (s, [])
  | some st =>
    let cl := s.claim st.channel
    if cl.holder.any (fun h => h.slot == i) then (s.setClaim st.channel { cl with holder := none }, [.passOn st.channel])
    else (s.setClaim st.channel { cl with waiters := cl.waiters.filter (· ≠ i) }, [])

/-- Record the result of the slot's current step. -/
def recordResult (i : SlotId) (r : StepResult) (s : State) : State :=
  s.modifySlot i fun x => { x with results := x.results.set (x.curStep - 1) r, reach := none, hold := none }

/-- The current step passes (R149): result PASSED, the claim passes on, and then the slot goes on. -/
def passStep (i : SlotId) (s : State) : State × List DutyTask :=
  let r := releaseStep i (recordResult i .passed s)
  (r.1.modifySlot i fun x => { x with phase := .none }, r.2 ++ [.goOn i])

/-- The current step fails, first part (R153, step 1). -/
def failStep (i : SlotId) (why : FailReason) (s : State) : State × List DutyTask :=
  let r := releaseStep i s
  (r.1, r.2 ++ [.settle i why])

/-- The current step fails, second part (R153, steps 2 to 4). -/
def settleFailure (i : SlotId) (why : FailReason) (s : State) : State × List DutyTask :=
  let s₁ := (recordResult i (.failed why) s).modifySlot i fun x => { x with faultsSeen := true, phase := .none }
  if (s.slot i).continueOnFault then (s₁, [.goOn i])
  else (raise .program (s₁.modifySlot i fun x => { x with state := .faulted }), [])

/-- The end of a pass (R154). -/
def endPass (i : SlotId) (s : State) : State :=
  let x := s.slot i
  let left := if x.loops = 0 then x.loopsLeft else x.loopsLeft - 1
  let y := { x with loopsLeft := left, curStep := 0, phase := .none, reach := none, hold := none }
  if x.loops ≠ 0 ∧ left = 0 then raise .program (s.setSlot i { y with state := .done })
  else if x.intervalMin = 0 then s.setSlot i { y with gap := some 1 }
  else s.setSlot i { y with state := .waiting, waitMinute := some ((x.loopStart + x.intervalMin) % Config.weekMinutes) }

/-- The slot goes on to its next step, or ends the pass after the last (R149, R153). -/
def goOnSlot (i : SlotId) (s : State) : State × List DutyTask :=
  let x := s.slot i
  if x.curStep < x.steps.length then (s, [.begin_ i (x.curStep + 1)]) else (endPass i s, [])

/-- One task, and the tasks it puts in front. -/
def runTask : DutyTask → State → State × List DutyTask
  | .begin_ i idx, s => beginStep i idx s
  | .take c i, s => takeClaim c i s
  | .passOn c, s => passOnClaim c s
  | .pass i, s => passStep i s
  | .fail i r, s => failStep i r s
  | .settle i r, s => settleFailure i r s
  | .goOn i, s => goOnSlot i s

/-- Run a list of tasks, the newest first, for at most `n` tasks. -/
def runTasks : Nat → List DutyTask → State → State
  | 0, _, s => s
  | _ + 1, [], s => s
  | n + 1, t :: ts, s =>
    let r := runTask t s
    runTasks n (r.2 ++ ts) r.1

/-- A bound on the tasks of one event: each step of the store begins at most once in an event, since a pass that ends is
not begun again within it, and a step gives rise to at most six tasks (log 14). -/
def taskBound (s : State) : Nat :=
  8 * (s.stepsStored + 8)

/-- Run the tasks of an event to their end. -/
def runDuty (ts : List DutyTask) (s : State) : State :=
  runTasks (taskBound s) ts s

/-- The slots with a step on the outlet, in the order in which an event at the outlet fails them: the waiters from tail to
head, then the holder (R151, R152). -/
def stepsOn (c : Channel) (s : State) : List SlotId :=
  (s.claim c).waiters.reverse ++ ((s.claim c).holder.map (fun h => h.slot)).toList

/-- Fail every step on the outlet, each in turn (R151, R152). -/
def failStepsOn (c : Channel) (why : FailReason) (s : State) : State :=
  runDuty ((stepsOn c s).map fun i => .fail i why) s

/-- A pass begins (R141, R142, R154): LOOP_START takes the minute, every result becomes NOT_RUN, and step 1 begins. -/
def beginPass (i : SlotId) (minute : Nat) (s : State) : State :=
  runDuty [.begin_ i 1] (s.modifySlot i fun x =>
    { x with state := .running, waitMinute := none, loopStart := minute, gap := none,
             results := x.steps.map fun _ => .notRun })

end Sys2Proof.Machine
end

