-- ==== Sys2Proof/Machine/Drive.lean ====
section
/-! DEFINITION. The Drive Unit (R95 to R117) and what the Outlet Table does on its reports (R120 to R124): move-need
decisions, the motion queue, the arbiter, move starts, completions, retargets, reversals, stops and fault stops.

A released slot or a joined entry runs the arbiter (R100, R102), and a grant may in turn release its slot at once (R103).
The operations below take the run of the arbiter as the argument `arb`; `runArbiter` ties the knot, one queue entry at a
time (log 13). -/

namespace Sys2Proof.Machine

/-- A channel's position record changed. -/
def State.modifyPosition (s : State) (c : Channel) (f : Position → Position) : State :=
  s.setPosition c (f (s.position c))

/-- STROKE_S of the channel's outlet; 0 where the record is absent, which no move start meets. -/
def strokeOf (c : Channel) (s : State) : Nat :=
  match s.outlet c with
  | some o => o.fixed.strokeS
  | none => 0

/-! ### Move need (R98) -/

/-- The need of a target and an estimate: whether a move is needed, and its direction. -/
def targetNeed (target est deadband : Nat) (olim clim : Bool) : Option MoveDir :=
  if deadband < max (target - est) (est - target) ∨ (target = 0 ∧ clim = false) ∨ (target = 1000 ∧ olim = false) then
    if target = 0 ∨ target < est then some .closing else some .opening
  else none

/-- The move-need decision of a channel (R98). -/
def moveNeed (c : Channel) (s : State) : Option MoveDir :=
  match s.outlet c with
  | none => none
  | some o =>
    let p := s.position c
    if p.homeReq then some .closing
    else
      match p.target with
      | none => none
      | some t => targetNeed t p.est (s.pool o.fixed.pool).settings.deadband (s.olimActive c) (s.climActive c)

/-! ### The motion queue (R100, R101) -/

/-- An entry joins the tail of its tier. -/
def addEntry (d : MoveDir) (c : Channel) (s : State) : State :=
  match d with
  | .closing => { s with drive := { s.drive with closing := s.drive.closing ++ [c] } }
  | .opening => { s with drive := { s.drive with opening := s.drive.opening ++ [c] } }

/-- The channel's entry, if any, leaves the queue. -/
def removeEntry (c : Channel) (s : State) : State :=
  { s with drive := { s.drive with closing := s.drive.closing.filter (· ≠ c), opening := s.drive.opening.filter (· ≠ c) } }

/-- A need enters the queue, and joining runs the arbiter. A need of a channel whose bank is handed off does not enter
(R100, R130). -/
def joinQueue (arb : State → State) (d : MoveDir) (c : Channel) (s : State) : State :=
  if s.handedOff c then s else arb (addEntry d c s)

/-- The outcome of a decision at a channel that does not drive (R97, R101, R106). -/
def applyNeed (arb : State → State) (c : Channel) (s : State) : State :=
  match s.queuedTier c, moveNeed c s with
  | none, none => s
  | none, some d => joinQueue arb d c s
  | some _, none => removeEntry c s
  | some q, some d => if q = d then s else joinQueue arb d c (removeEntry c s)

/-! ### Estimates and travel (R104, R109, R112) -/

/-- TRAVEL grows by a distance and stays at 65535 once there; at 4000 or more DRIFT becomes YES (R112). -/
def addTravel (d : Nat) (p : Position) : Position :=
  let travel := min Config.travelMax (p.travel + d)
  { p with travel, drift := p.drift || decide (Config.driftTravel ≤ travel) }

/-- The distance driven in the leg: milliseconds over the stroke, rounded down (R109). -/
def Move.driven (m : Move) : Nat :=
  m.elapsed / m.stroke

/-- The position estimated from the time driven in the leg, clamped to 0 to 1000 (R109). -/
def estimate (est : Nat) (m : Move) : Nat :=
  match m.dir with
  | .closing => est - m.driven
  | .opening => min 1000 (est + m.driven)

/-- A driving channel's estimate at a stop or a retarget: EST and TRAVEL follow the leg, and the leg start restarts
(R109). -/
def estimateLeg (p : Position) : Position :=
  match p.move with
  | none => p
  | some m => addTravel m.driven { p with est := estimate p.est m, move := some { m with elapsed := 0 } }

/-! ### Kinds of move (R103) -/

/-- MOVE_KIND of a move in a direction, from HOME_REQ, TARGET and DRIFT. -/
def kindFor (d : MoveDir) (p : Position) : MoveKind :=
  match d with
  | .closing =>
    if p.homeReq then .homing
    else if p.target = some 0 then (if p.drift then .homing else .toClosed)
    else .intermediate
  | .opening => if p.target = some 1000 then .toOpen else .intermediate

/-- The duration or the time limit of a move, in milliseconds. -/
def timeFor (d : MoveDir) (k : MoveKind) (p : Position) (stroke : Nat) : Nat :=
  match k, d with
  | .homing, _ => stroke * 1250
  | .toClosed, _ => p.est * stroke + stroke * 250
  | .toOpen, _ => (1000 - p.est) * stroke + stroke * 250
  | .intermediate, .closing => (p.est - p.target.getD p.est) * stroke
  | .intermediate, .opening => (p.target.getD p.est - p.est) * stroke

/-! ### The Outlet Table's side of the reports -/

/-- An outlet leaves an eligible state for HELD, FAULTED or HOMING: ASSUMED_DRAW takes the GRANT, GRANT and EFF_DEMAND
become 0 and the warm timer stops (R22). -/
def leaveEligible (dest : OutletState) (o : Outlet) : Outlet :=
  { o with state := dest, assumedDraw := o.grant, grant := 0, effDemand := 0, warmTimer := none }

/-- A homing completion at the Outlet Table (R120). -/
def homingDone (c : Channel) (s : State) : State :=
  s.modifyOutlet c fun o =>
    { o with assumedDraw := 0, recovery := false,
             state := if o.state = .homing then (if o.bars.all then .locked else .idle) else o.state }

/-! ### Stops, reversals, homing requests -/

/-- A reversal (R111) of a channel whose EST and TRAVEL have been estimated: it stops, its slot is released, the pause
starts, and an entry joins the tier of the new need. -/
def reverseMove (arb : State → State) (d : MoveDir) (c : Channel) (s : State) : State :=
  let s₁ := arb (s.modifyPosition c fun p => { p with move := none })
  joinQueue arb d c (s₁.modifyPosition c fun p => { p with pause := some Config.pauseMs })

/-- A move in progress goes on in its direction as a move of the kind its need now calls for: kind and move timer are set
anew from the estimate with the move's stroke, and the check timer stops (R110, R99). -/
def renewMove (c : Channel) (s : State) : State :=
  s.modifyPosition c fun p =>
    match p.move with
    | none => p
    | some m =>
      let k := kindFor m.dir p
      { p with move := some { m with kind := k, timer := timeFor m.dir k p m.stroke, check := none } }

/-- A homing request of the Outlet Table (R99). -/
def homingRequest (arb : State → State) (c : Channel) (s : State) : State :=
  let s₁ := s.modifyPosition c fun p => { p with homeReq := true }
  match (s₁.position c).move with
  | none =>
    match s₁.queuedTier c with
    | none => joinQueue arb .closing c s₁
    | some .closing => s₁
    | some .opening => joinQueue arb .closing c (removeEntry c s₁)
  | some m =>
    if m.kind = .homing then s₁
    else
      let s₂ := s₁.modifyPosition c estimateLeg
      match m.dir with
      | .closing => renewMove c s₂
      | .opening => reverseMove arb .closing c s₂

/-! ### Travel faults -/

/-- A fault report at the Outlet Table (R121, R123, R124, R20). No report is made for a HELD or FAULTED outlet, nor for an
absent one. A fault that leads to FAULTED fails the steps on the outlet (R152). -/
def faultReport (arb : State → State) (c : Channel) (k : FaultKind) (s : State) : State :=
  match s.outlet c with
  | none => s
  | some o =>
    let s₁ := raise .travel
      ((s.modifyPosition c fun p => { p with known := false }).setOutlet c (some { o with lastFault := some k }))
    match o.state with
    | .idle | .warming | .serving =>
      if o.fixed.autoRecover ∧ k ≠ .bothLimits then
        homingRequest arb c (s₁.modifyOutlet c fun o => { leaveEligible .homing o with recovery := true })
      else failStepsOn c .travel (s₁.modifyOutlet c (leaveEligible .faulted))
    | .homing => failStepsOn c .travel (s₁.modifyOutlet c fun o => { o with state := .faulted, recovery := false })
    | .locked => failStepsOn c .travel (s₁.modifyOutlet c fun o => { o with state := .faulted })
    | .held | .faulted => s

/-- EST after a fault stop (R116): a limit active alone gives its own position, otherwise the estimate of a driving channel,
or the value held. -/
def faultEst (olim clim : Bool) (p : Position) : Nat :=
  match clim, olim with
  | true, false => 0
  | false, true => 1000
  | _, _ =>
    match p.move with
    | some m => estimate p.est m
    | none => p.est

/-- The position record after a fault stop (R116). -/
def faultPosition (olim clim : Bool) (p : Position) : Position :=
  let d := match p.move with
    | some m => m.driven
    | none => 0
  let q := addTravel d p
  { q with est := faultEst olim clim p, move := none, homeReq := false, target := none, pause := none }

/-- A fault stop and its report (R116). `held`: the channel holds a slot, driving or just granted, whose release runs the
arbiter. -/
def faultStop (arb : State → State) (held : Bool) (c : Channel) (k : FaultKind) (s : State) : State :=
  let s₁ := removeEntry c (s.modifyPosition c (faultPosition (s.olimActive c) (s.climActive c)))
  faultReport arb c k (if held then arb s₁ else s₁)

/-! ### Completion (R104, R114) -/

/-- The position record after a homing completion (R114): a requested homing sets TARGET to 0, a drift homing keeps it. -/
def homedPosition (p : Position) : Position :=
  { p with est := 0, known := true, travel := 0, drift := false, target := if p.homeReq then some 0 else p.target,
           homeReq := false }

/-- The position record of a completed move before its slot is released (R104 steps 1 to 4, R114). -/
def completedPosition (m : Move) (est : Nat) (known : Bool) (p : Position) : Position :=
  let q := addTravel m.driven { p with est, known, move := none }
  if m.kind = .homing then homedPosition q else q

/-- The completion of a move with the EST and KNOWN its ending rule gives (R104, R114). -/
def completeMove (arb : State → State) (m : Move) (est : Nat) (known : Bool) (c : Channel) (s : State) : State :=
  let s₁ := arb (s.modifyPosition c (completedPosition m est known))
  let s₂ := if m.kind = .homing then homingDone c s₁ else s₁
  match moveNeed c s₂ with
  | none => s₂
  | some d =>
    if d = m.dir then joinQueue arb d c s₂
    else joinQueue arb d c (s₂.modifyPosition c fun p => { p with pause := some Config.pauseMs })

/-! ### Slots (R102, R103) -/

/-- The limit a move ends on is active (R103). -/
def endsAtOnce (k : MoveKind) (olim clim : Bool) : Bool :=
  match k with
  | .homing | .toClosed => clim
  | .toOpen => olim
  | .intermediate => false

/-- The move that a slot grant starts (R103). An opening move from the known closed seat with CLIM active runs a check
timer. -/
def newMove (d : MoveDir) (c : Channel) (s : State) : Move :=
  let p := s.position c
  let stroke := strokeOf c s
  let k := kindFor d p
  { dir := d, kind := k, timer := timeFor d k p stroke, elapsed := 0, stroke,
    check := if d = .opening ∧ p.known = true ∧ p.est = 0 ∧ s.climActive c = true then some (stroke * 100) else none }

/-- A slot is granted to a channel whose entry has left the queue (R103). Both limits active is looked at first (log 20). -/
def startMove (arb : State → State) (d : MoveDir) (c : Channel) (s : State) : State :=
  let m := newMove d c s
  if s.olimActive c && s.climActive c then faultStop arb true c .bothLimits s
  else if endsAtOnce m.kind (s.olimActive c) (s.climActive c) then
    completeMove arb m (if m.kind = .toOpen then 1000 else 0) true c s
  else s.modifyPosition c fun p => { p with move := some m }

/-- The arbiter may grant a slot to the entry: no running pause, and the bank's hand-off input not asserted (R102). -/
def grantable (s : State) (c : Channel) : Bool :=
  (s.position c).pause.isNone && !(s.handoff.bho.get (bankOf c))

/-- The entry the arbiter reaches first: the closing tier first, passing over entries that may not be granted (R102). -/
def nextEntry (s : State) : Option (MoveDir × Channel) :=
  match s.drive.closing.find? (grantable s) with
  | some c => some (.closing, c)
  | none => (s.drive.opening.find? (grantable s)).map fun c => (.opening, c)

/-- The arbiter, granting at most `n` entries (R102). -/
def arbiter : Nat → State → State
  | 0, s => s
  | n + 1, s =>
    if s.slotFree then
      match nextEntry s with
      | none => s
      | some (d, c) => arbiter n (startMove (arbiter n) d c (removeEntry c s))
    else s

/-- A run of the arbiter. Each grant takes an entry away, and the entries it can lead to by an at-once completion are none,
so the length of the queue bounds the grants (log 14). -/
def runArbiter (s : State) : State :=
  arbiter (s.drive.closing.length + s.drive.opening.length) s

/-! ### Targets (R97, R110) -/

/-- A new target reaches a driving channel that is not homing (R110). -/
def retarget (m : Move) (c : Channel) (s : State) : State :=
  let s₁ := s.modifyPosition c estimateLeg
  match moveNeed c s₁ with
  | none => runArbiter (s₁.modifyPosition c fun p => { p with move := none })
  | some d => if d = m.dir then renewMove c s₁ else reverseMove runArbiter d c s₁

/-- The Outlet Table gives a channel a target (R97). -/
def giveTarget (c : Channel) (t : Nat) (s : State) : State :=
  let p := s.position c
  let s₁ := s.modifyPosition c fun p => { p with target := some t }
  match p.move with
  | some m => if m.kind = .homing ∨ p.homeReq = true ∨ p.target = some t then s₁ else retarget m c s₁
  | none => if p.homeReq then s₁ else applyNeed runArbiter c s₁

/-- A channel stop (R115). -/
def stopChannel (c : Channel) (s : State) : State :=
  let p := s.position c
  let s₁ := removeEntry c (s.modifyPosition c fun p =>
    { estimateLeg p with move := none, pause := none, homeReq := false, target := none })
  if p.move.isSome then runArbiter s₁ else s₁

/-- A homing request outside the arbiter (R99). -/
def requestHoming (c : Channel) (s : State) : State :=
  homingRequest runArbiter c s

/-! ### Timers of the Drive Unit -/

/-- The move timer of a move runs out (R105, R107, R108). -/
def moveTimeout (m : Move) (c : Channel) (s : State) : State :=
  match m.kind with
  | .toClosed | .homing => faultStop runArbiter true c .noClosedLimit s
  | .toOpen => faultStop runArbiter true c .noOpenLimit s
  | .intermediate =>
    if s.olimActive c && s.climActive c then faultStop runArbiter true c .bothLimits s
    else if m.check.isSome ∧ s.climActive c = true then faultStop runArbiter true c .stuck s
    else
      let p := s.position c
      completeMove runArbiter m (p.target.getD p.est) p.known c s

/-- MOVE_TIMER_EXPIRY. -/
def moveTimerExpiry (c : Channel) (s : State) : State :=
  match (s.position c).move with
  | none => s
  | some m => if m.timer = 0 then moveTimeout m c s else s

/-- CHECK_TIMER_EXPIRY (R108): STUCK while CLIM is still active. -/
def checkTimerExpiry (c : Channel) (s : State) : State :=
  match (s.position c).move with
  | none => s
  | some m =>
    if timerDue m.check then
      if s.climActive c then faultStop runArbiter true c .stuck s
      else s.modifyPosition c fun p => { p with move := some { m with check := none } }
    else s

/-- PAUSE_TIMER_EXPIRY (R111): the pause ends, and the arbiter runs if the channel is queued (R102). -/
def pauseTimerExpiry (c : Channel) (s : State) : State :=
  if timerDue (s.position c).pause then
    let s₁ := s.modifyPosition c fun p => { p with pause := none }
    if (s₁.queuedTier c).isSome then runArbiter s₁ else s₁
  else s

/-- The millisecond timebase advances by `n` ticks at a channel: move timer, check timer, leg and pause (R103). The leg of
a move does not grow past its timer, since the move's end is due then. -/
def advancePosition (n : Nat) (p : Position) : Position :=
  { p with pause := tickTimer n p.pause,
           move := p.move.map fun m =>
             { m with timer := m.timer - n, elapsed := m.elapsed + min n m.timer, check := tickTimer n m.check } }

/-! ### Limit events (R105, R106, R122) -/

/-- The level of a limit input becomes what the event says. -/
def setLimit (c : Channel) (line : LimitLine) (active : Bool) (s : State) : State :=
  match line with
  | .olim => { s with drive := { s.drive with olim := s.drive.olim.set c active } }
  | .clim => { s with drive := { s.drive with clim := s.drive.clim.set c active } }

/-- A limit event during a move (R105), the level already taken. -/
def limitDuringMove (m : Move) (line : LimitLine) (active : Bool) (c : Channel) (s : State) : State :=
  if s.olimActive c && s.climActive c then faultStop runArbiter true c .bothLimits s
  else
    match m.dir, line, active with
    | .closing, .clim, true => completeMove runArbiter m 0 true c s
    | .opening, .olim, true => completeMove runArbiter m 1000 true c s
    | .opening, .clim, false => s.modifyPosition c fun p => { p with move := some { m with check := none } }
    | .opening, .clim, true | .opening, .olim, false => s
    | .closing, .olim, _ | .closing, .clim, false => s

/-- A limit event at a channel that does not drive (R106, R122), the level already taken. -/
def limitAtStill (c : Channel) (s : State) : State :=
  match s.outlet c with
  | none => s
  | some o =>
    if s.olimActive c && s.climActive c && decide (o.state ≠ .faulted) && !s.handedOff c then
      faultStop runArbiter false c .bothLimits s
    else applyNeed runArbiter c s

/-- The level a limit input has. -/
def limitLevel (c : Channel) (line : LimitLine) (s : State) : Bool :=
  match line with
  | .olim => s.olimActive c
  | .clim => s.climActive c

/-- LIMIT_EVENT: a change of a limit input. A level the input already has is no change (log 17). While RSTn is low the
input changes and no event is taken (R189). -/
def limitEvent (c : Channel) (line : LimitLine) (active : Bool) (s : State) : State :=
  if limitLevel c line s = active then s
  else
    let s₁ := setLimit c line active s
    if s.rstLow then s₁
    else
      match (s₁.position c).move with
      | some m => limitDuringMove m line active c s₁
      | none => limitAtStill c s₁

end Sys2Proof.Machine
end

