-- ==== Sys2Proof/Machine/Curtail.lean ====
section
/-! DEFINITION. The Curtailment Monitor: acting on a round result (R86 to R88), writing the log (R91), READ-LOG (R92). -/

namespace Sys2Proof.Machine

/-- The tolerance counter reloaded: TOLERANCE of the outlet's active set as it stands (R85); the counter as it was where the
record is absent. -/
def reloadValue (c : Channel) (s : State) : Nat :=
  match s.outlet c with
  | some o => (s.activeProfile o).tolerance
  | none => (s.curtailment c).counter

/-- Write an entry to the log (R91): a full log loses its oldest entry, sets LOST and raises LOGLOSS; then the entry is
added and CURTAIL is raised. -/
def writeLog (x : LogEntry) (s : State) : State :=
  let s₁ :=
    if Config.logLimit ≤ s.log.entries.length then
      raise .logLoss { s with log := { entries := s.log.entries.drop 1, lost := true } }
    else s
  raise .curtail { s₁ with log := { s₁.log with entries := s₁.log.entries ++ [x] } }

/-- What the hand-over of a round says of one participant (R65). -/
structure RoundResult where
  channel : Channel
  pool : Pool
  cls : ServiceClass
  e : Nat
  fu : Nat
  grant : Nat
deriving DecidableEq, Repr

/-- The log entry of a result, stamped with the plant time (R90). -/
def logEntry (k : LogKind) (r : RoundResult) (s : State) : LogEntry :=
  { minute := s.clock.minute, second := s.clock.second, channel := r.channel, pool := r.pool, cls := r.cls, kind := k,
    e := r.e, grant := r.grant }

/-- The tolerance counter after a result, and the kind of entry written (R87). -/
def counterStep (reload counter e grant : Nat) : Nat × Option LogKind :=
  if e = 0 then (reload, none)
  else if grant < e then
    match counter with
    | 0 => (0, none)
    | 1 => (0, some .curtailed)
    | n + 2 => (n + 1, none)
  else (reload, if counter = 0 then some .restored else none)

/-- The FLOOR_CUT flag after a result, and whether an entry is written (R88). -/
def floorCutStep (flag : Bool) (fu grant : Nat) : Bool × Bool :=
  if grant < fu then (true, !flag) else (false, false)

/-- The monitor acts on a result: counter first, then flag (R86). -/
def takeResult (r : RoundResult) (s : State) : State :=
  let cur := s.curtailment r.channel
  let n := counterStep (reloadValue r.channel s) cur.counter r.e r.grant
  let s₁ := s.setCurtailment r.channel { cur with counter := n.1 }
  let s₂ := match n.2 with
    | some k => writeLog (logEntry k r s₁) s₁
    | none => s₁
  let f := floorCutStep cur.floorCut r.fu r.grant
  let s₃ := s₂.setCurtailment r.channel { counter := n.1, floorCut := f.1 }
  if f.2 then writeLog (logEntry .floorCut r s₃) s₃ else s₃

/-- The code of a log entry's KIND (11.5). -/
def LogKind.code : LogKind → Byte
  | .curtailed => 0
  | .restored => 1
  | .floorCut => 2

/-- The 11 bytes of a log entry (11.5). -/
def logEntryBytes (x : LogEntry) : List Byte :=
  be16 x.minute ++ [byte x.second, byte x.channel.val, poolCode x.pool, x.cls.code, x.kind.code] ++ be16 x.e ++ be16 x.grant

/-- READ-LOG (R92). -/
def readLog (_ : List Byte) (s : State) : Answer × State :=
  let taken := s.log.entries.take Config.logReadLimit
  let rest := s.log.entries.drop Config.logReadLimit
  (⟨.done, [flagByte s.log.lost, byte rest.length, byte taken.length] ++ taken.flatMap logEntryBytes⟩,
    { s with log := { entries := rest, lost := false } })

/-- READ_LOG. -/
def execReadLog (s : State) : Host.Outcome State Fault Refusal :=
  request .readLog readLog s

end Sys2Proof.Machine
end

