-- ==== Sys2Proof/Machine/Round.lean ====
section
/-! DEFINITION. The capacity computation (R37 to R43) and the allocation round, stage by stage (R47 to R68). -/

namespace Sys2Proof.Machine

/-! ### Capacity (R37 to R43) -/

/-- The base of the STEAM pool (R38). -/
def steamBase (x : SteamPart) : Nat :=
  if x.capStale then x.cd * x.settings.capFallbackPct / 100 else x.cd

/-- The storage temperature input of an HW pool (R37). -/
def storageInput : HwPool → InputId
  | .hw1 => 49
  | .hw2 => 50

/-- The header pressure input. -/
def headerInput : InputId := 48

/-- The feeder term GF of an HW pool (R39). -/
def feederTerm (h : HwPool) (s : State) : Nat :=
  match (s.hwPart h).feeder with
  | none => 0
  | some c =>
    match s.outlet c with
    | some o => if o.state.eligible then o.grant else 0
    | none => 0

/-- The storage allowance A of an HW pool (R40). -/
def storageAllowance (h : HwPool) (s : State) : Nat :=
  let x := s.sensor (storageInput h)
  if x.faulted = false ∧ (s.hwPart h).storeTemp ≤ x.lastGood then (s.hwPart h).storeKw else 0

/-- The pressure factor K of the STEAM pool (R42). -/
def pressureFactor (s : State) : Nat :=
  let x := s.sensor headerInput
  let set := s.pools.steamPart.settings
  if x.faulted then set.pFaultFactor
  else if (set.pLow : Int) ≤ x.lastGood then 1000
  else if x.lastGood ≤ (set.pTrip : Int) then 0
  else (x.lastGood.toNat - set.pTrip) * 1000 / (set.pLow - set.pTrip)

/-- The sum H of the assumed draws of a pool's outlets, limited to 8000 (R43). -/
def assumedDraws (p : Pool) (s : State) : Nat :=
  min Config.capacityMax (((indices 48).map fun c =>
    match s.outlet c with
    | some o => if o.fixed.pool = p then o.assumedDraw else 0
    | none => 0).sum)

/-- The four steps of the capacity computation from base, allowance, reserve, factor and assumed draws (R41 to R43). -/
def figuresOf (b a reservePct k h : Nat) : Figures :=
  let b1 := b * (100 - reservePct) / 100
  let b2 := b1 * k / 1000
  { b, a, k, h, c := min Config.capacityMax (b2 - h) }

/-- The capacity computation of a pool (R37). -/
def capacity (p : Pool) (s : State) : Figures :=
  let r := (s.pool p).settings.reservePct
  match p with
  | .steam => figuresOf (steamBase s.pools.steamPart) 0 r (pressureFactor s) (assumedDraws p s)
  | .hw h =>
    let a := storageAllowance h s
    figuresOf (feederTerm h s * (s.hwPart h).coilYieldPct / 100 + a) a r 1000 (assumedDraws p s)

/-! ### Demand stage (R51 to R53) -/

/-- A participant of a round: its class, weight, E and FU, and the grant G it has come to. -/
structure Part where
  ch : Channel
  cls : ServiceClass
  weight : Nat
  e : Nat
  fu : Nat
  g : Nat
deriving DecidableEq, Repr

/-- The part of the raw demand taken from the host demand record (R79). -/
def hostDemandKw (d : HostDemand) (fallback : Nat) : Nat :=
  match d with
  | .absent => 0
  | .current kw _ => kw
  | .stale _ => fallback

/-- The raw demand D: claim, feeder demand, host demand, in that order (R51). -/
def rawDemand (c : Channel) (o : Outlet) (s : State) : Nat :=
  match (s.claim c).holder with
  | some h => h.kw
  | none => if o.feederOf.isSome then o.feederDemand else hostDemandKw (s.demand c) o.fixed.fallbackKw

/-- The class of the round: the claiming step's CLASS, or CLASS of the active set (R52). -/
def roundClass (c : Channel) (o : Outlet) (s : State) : ServiceClass :=
  match (s.claim c).holder with
  | some h =>
    match (s.slot h.slot).steps[h.step - 1]? with
    | some st => st.cls
    | none => (s.activeProfile o).cls
  | none => (s.activeProfile o).cls

/-- A warm-limited outlet: STEAM, IDLE or WARMING, active WARM_KW above 0 (R53). -/
def warmLimited (o : Outlet) (prof : Profile) : Bool :=
  decide (o.fixed.pool = .steam) && (decide (o.state = .idle) || decide (o.state = .warming)) && decide (0 < prof.warmKw)

/-- The effective demand E (R53). -/
def effectiveDemand (o : Outlet) (prof : Profile) (d : Nat) : Nat :=
  let e := min d (min prof.maxKw o.fixed.ratedKw)
  if warmLimited o prof then min e prof.warmKw else e

/-- The entry of the demand stage for one outlet. -/
def partOf (c : Channel) (o : Outlet) (s : State) : Part :=
  let prof := s.activeProfile o
  let e := effectiveDemand o prof (rawDemand c o s)
  { ch := c, cls := roundClass c o s, weight := prof.weight, e, fu := min prof.floorKw e, g := 0 }

/-- The participants of a round of a pool, in ascending channel order (R47). -/
def participants (p : Pool) (s : State) : List Part :=
  (indices 48).filterMap fun c =>
    match s.outlet c with
    | some o => if o.fixed.pool = p ∧ o.state.eligible = true then some (partOf c o s) else none
    | none => none

/-! ### Stages A and B (R54 to R58) -/

/-- The classes in priority order (R52). -/
def classOrder : List ServiceClass :=
  [.sanitary, .process, .guest, .deferrable]

/-- A sum over participants. -/
def total (f : Part → Nat) (ps : List Part) : Nat :=
  (ps.map f).sum

/-- How many of a list come before a participant in the order of descending key, ties by ascending channel. -/
def rank (key : Part → Nat) (ps : List Part) (p : Part) : Nat :=
  (ps.filter fun q => decide (key p < key q) || (decide (key q = key p) && decide (q.ch < p.ch))).length

/-- One kW of a leftover of `l` kW for a participant whose rank is below it (R55, R58). -/
def leftoverKw (key : Part → Nat) (ps : List Part) (l : Nat) (p : Part) : Nat :=
  if rank key ps p < l then 1 else 0

/-- The participants of a class. -/
def ofClass (cls : ServiceClass) (ps : List Part) : List Part :=
  ps.filter fun p => decide (p.cls = cls)

/-- The grants of a class changed. -/
def grantClass (cls : ServiceClass) (g : Part → Nat) (ps : List Part) : List Part :=
  ps.map fun p => if p.cls = cls then { p with g := g p } else p

/-- Stage A at one class, with R remaining (R54, R55). -/
def stageAClass (cls : ServiceClass) (x : Nat × List Part) : Nat × List Part :=
  let mem := ofClass cls x.2
  let f := total (fun p => p.fu) mem
  if f ≤ x.1 then (x.1 - f, grantClass cls (fun p => p.fu) x.2)
  else
    let l := x.1 - total (fun p => p.fu * x.1 / f) mem
    (0, grantClass cls (fun p => p.fu * x.1 / f + leftoverKw (fun q => q.fu) mem l p) x.2)

/-- Stage A over the classes (R54). -/
def stageA (c : Nat) (ps : List Part) : Nat × List Part :=
  classOrder.foldl (fun x cls => stageAClass cls x) (c, ps)

/-- The need N of a participant above its Stage A grant (R56). -/
def need (p : Part) : Nat :=
  p.e - p.g

/-- The final pass of a fill (R58). -/
def finalPass (r w : Nat) (ps : List Part) : List Part :=
  let share := fun p : Part => r * p.weight / w
  let l := r - total share ps
  ps.map fun p => { p with g := p.g + share p + leftoverKw (fun q => q.weight) ps l p }

/-- The passes of a fill over its pass set, at most `n` of them (R57). -/
def fillPasses : Nat → Nat → List Part → List Part
  | 0, _, ps => ps
  | n + 1, r, ps =>
    let w := total (fun p => p.weight) ps
    let leaves := fun p : Part => decide (need p ≤ r * p.weight / w)
    let gone := ps.filter leaves
    if gone.isEmpty then finalPass r w ps
    else
      gone.map (fun p => { p with g := p.e })
        ++ fillPasses n (r - total need gone) (ps.filter fun p => !leaves p)

/-- A class filled by weight (R57): the pass set starts as the participants with N above 0. -/
def fillClass (r : Nat) (mem : List Part) : List Part :=
  fillPasses (mem.length + 1) r (mem.filter fun p => decide (0 < need p))

/-- The grants of a filled class written back to the list of participants. -/
def mergeGrants (filled ps : List Part) : List Part :=
  ps.map fun p => (filled.find? fun q => decide (q.ch = p.ch)).getD p

/-- Stage B at one class (R56). It does nothing once R is 0. -/
def stageBClass (cls : ServiceClass) (x : Nat × List Part) : Nat × List Part :=
  if x.1 = 0 then x
  else
    let mem := ofClass cls x.2
    let nt := total need mem
    if nt ≤ x.1 then (x.1 - nt, grantClass cls (fun p => p.e) x.2)
    else (0, mergeGrants (fillClass x.1 mem) x.2)

/-- Stage B over the classes (R56). -/
def stageB (x : Nat × List Part) : Nat × List Part :=
  classOrder.foldl (fun y cls => stageBClass cls y) x

/-- The final grants of a round with capacity C (R54 to R58). -/
def allocate (c : Nat) (ps : List Part) : List Part :=
  (stageB (stageA c ps)).2

/-! ### Targets and states (R59 to R62) -/

/-- The valve target of a grant, rounded half up (R60). -/
def targetOf (grant rated : Nat) : Nat :=
  (grant * 1000 + rated / 2) / rated

/-- STATE and warm timer of a participant after its grant (R61, R62). -/
def afterGrant (g warmKw : Nat) (o : Outlet) : Outlet :=
  if g = 0 then { o with state := .idle, warmTimer := none }
  else
    match o.state with
    | .idle =>
      if o.fixed.pool = .steam ∧ 0 < warmKw then
        { o with state := .warming, warmTimer := if 0 < o.fixed.warmMaxS then some o.fixed.warmMaxS else none }
      else { o with state := .serving }
    | .warming => if 0 < warmKw then o else { o with state := .serving, warmTimer := none }
    | .serving | .homing | .held | .locked | .faulted => o

/-- The record of a participant after the round (R59, R61, R62). -/
def grantOutlet (s : State) (p : Part) : State :=
  s.modifyOutlet p.ch fun o =>
    { afterGrant p.g (s.activeProfile o).warmKw o with grant := p.g, effDemand := p.e }

/-- Give a participant its target, unless an event the round has itself set off took it out of the eligible states
(R60, log 12). -/
def targetOutlet (s : State) (p : Part) : State :=
  match s.outlet p.ch with
  | some o => if o.state.eligible then giveTarget p.ch (targetOf p.g o.fixed.ratedKw) s else s
  | none => s

/-- The round totals (R59). -/
def roundTotals (ps : List Part) : Totals :=
  { sumE := total (fun p => p.e) ps, sumGrant := total (fun p => p.g) ps, eligibleCount := ps.length,
    curtailedCount := (ps.filter fun p => decide (p.g < p.e)).length }

/-! ### The stages as steps of the state (R47 to R49, R65, R66) -/

/-- What a round does at its start: timer at PERIOD_S, ROUND_COUNT (R47). -/
def startRound (p : Pool) (s : State) : State :=
  let r := s.pool p
  s.setPool p { r with roundTimer := some r.settings.periodS, roundCount := (r.roundCount + 1) % 65536 }

/-- The other profile set. -/
def ProfileBank.other : ProfileBank → ProfileBank
  | .a => .b
  | .b => .a

/-- The swap stage (R49). -/
def swapStage (p : Pool) (s : State) : State :=
  let r := s.pool p
  if r.swapPending then
    raise .profile (s.setPool p { r with activeBank := r.activeBank.other, swapPending := false })
  else s

/-- The capacity stage: the last figures are written (R50). -/
def capacityStage (p : Pool) (s : State) : State :=
  s.setPool p { s.pool p with figures := capacity p s }

/-- The grants, states and totals of a round are written, and then the targets are given in ascending channel order
(R59 to R62). -/
def targetStage (p : Pool) (ps : List Part) (s : State) : State :=
  let s₁ := ps.foldl grantOutlet s
  let s₂ := s₁.setPool p { s₁.pool p with totals := roundTotals ps }
  ps.foldl targetOutlet s₂

/-- The curtailment hand-over, in ascending channel order (R65). DESIGN CHOICE (log 28), unsafe: the result of a participant that a
BOTH_LIMITS fault of the round's own targets has already taken to FAULTED, and so to GRANT 0, carries the grant allocated to it;
the spec does not say which of the two. -/
def handOver (p : Pool) (ps : List Part) (s : State) : State :=
  ps.foldl (fun s q =>
    takeResult { channel := q.ch, pool := p, cls := q.cls, e := q.e, fu := q.fu, grant := q.g } s) s

/-- The feeder demand of SE and A (R66). -/
def feederDemandOf (se a yieldPct rated : Nat) : Nat :=
  if se ≤ a then 0 else min rated (((se - a) * 100 + yieldPct - 1) / yieldPct)

/-- The feeder demand stage of an HW round, with the A of its capacity stage (R66). -/
def feederStage (p : Pool) (ps : List Part) (a : Nat) (s : State) : State :=
  match p with
  | .steam => s
  | .hw h =>
    match (s.hwPart h).feeder with
    | none => s
    | some c => s.modifyOutlet c fun o =>
        { o with feederDemand := feederDemandOf (total (fun q => q.e) ps) a (s.hwPart h).coilYieldPct o.fixed.ratedKw }

/-- The grants a round comes to, from the state its capacity stage leaves. -/
def roundGrants (p : Pool) (s : State) : List Part :=
  allocate (s.pool p).figures.c (participants p s)

/-- A round of a pool, all eight stages as one event (R47, R48). -/
def runRound (p : Pool) (s : State) : State :=
  let s₁ := capacityStage p (swapStage p (startRound p s))
  let ps := roundGrants p s₁
  feederStage p ps (s₁.pool p).figures.a (handOver p ps (targetStage p ps s₁))

/-- ROUND_TIMER_EXPIRY (R32). -/
def roundTimerExpiry (p : Pool) (s : State) : State :=
  if timerDue (s.pool p).roundTimer then runRound p s else s

/-- ROUND_TIMER_EXPIRY as a command. -/
def execRoundTimerExpiry (p : Pool) (s : State) : Host.Outcome State Fault Refusal :=
  running (roundTimerExpiry p) s

end Sys2Proof.Machine
end

