-- ==== Sys2Proof/Machine/Pools.lean ====
section
/-! DEFINITION. POOL-SET with feeder designation, enabling and disabling (R27 to R31), SUPPLY and the capacity staleness
timer (R34, R35), PROFILE-SWAP (R36), REBALANCE (R33) and READ-POOL (R45). -/

namespace Sys2Proof.Machine

/-! ### POOL-SET -/

/-- The other HW pool. -/
def HwPool.other : HwPool → HwPool
  | .hw1 => .hw2
  | .hw2 => .hw1

/-- The FEEDER operand of a POOL-SET for an HW pool: 0xFFFF = NONE, otherwise an address that passes checks 4 to 7 of
R27. -/
def feederOperand (h : HwPool) (addr : Nat) (s : State) : Except Status (Option Channel) :=
  if addr = 0xFFFF then .ok none
  else
    match translate s.xlat addr with
    | .error st => .error st
    | .ok c =>
      match s.outlet c with
      | none => .error .conflict
      | some o =>
        if o.fixed.pool ≠ .steam then .error .conflict
        else if (s.hwPart (HwPool.other h)).feeder = some c then .error .conflict
        else if (s.claim c).holder.isSome ∧ (s.hwPart h).feeder ≠ some c then .error .conflict
        else .ok (some c)

/-- An old feeder released (R29, 1). -/
def releaseFeeder (o : Outlet) : Outlet :=
  { o with feederOf := none, feederDemand := 0 }

/-- A new feeder designated (R29, 2). -/
def makeFeeder (h : HwPool) (o : Outlet) : Outlet :=
  { o with feederOf := some h, feederDemand := 0 }

/-- The feeder designation of an executed POOL-SET for an HW pool whose feeder was `old` (R29). -/
def designate (h : HwPool) (old new : Option Channel) (s : State) : State :=
  if old = new then s
  else
    let s₁ := match old with
      | some c => s.modifyOutlet c releaseFeeder
      | none => s
    match new with
    | some c => s₁.modifyOutlet c (makeFeeder h)
    | none => s₁

/-- What a disable does to an outlet of the pool (R31). -/
def disableOutlet (o : Outlet) : Outlet :=
  if o.state.eligible then { o with grant := 0, effDemand := 0, state := .idle, warmTimer := none }
  else { o with grant := 0, effDemand := 0 }

/-- The eligible outlets of a pool, in ascending channel order. -/
def eligibleOf (p : Pool) (s : State) : List Channel :=
  (indices 48).filter fun c =>
    match s.outlet c with
    | some o => decide (o.fixed.pool = p) && o.state.eligible
    | none => false

/-- The records a disable changes, before the targets are given (R31). -/
def disableRecords (p : Pool) (s : State) : State :=
  let s₁ := (indices 48).foldl (fun s c =>
    s.modifyOutlet c fun o => if o.fixed.pool = p then disableOutlet o else o) s
  let s₂ := match p with
    | .steam => s₁
    | .hw h =>
      match (s₁.hwPart h).feeder with
      | some c => s₁.modifyOutlet c fun o => { o with feederDemand := 0 }
      | none => s₁
  s₂.setPool p { s₂.pool p with
    roundTimer := none, totals := { sumE := 0, sumGrant := 0, eligibleCount := 0, curtailedCount := 0 } }

/-- A pool is disabled (R31): the records, then target 0 to each outlet that was eligible, in ascending channel order,
unless an event the disable has itself set off took it out of the eligible states (log 12). -/
def disablePool (p : Pool) (s : State) : State :=
  (eligibleOf p s).foldl (fun s c => if s.isEligible c then giveTarget c 0 s else s) (disableRecords p s)

/-- The change of ENABLE an executed POOL-SET makes (R30, R31). -/
def applyEnable (p : Pool) (was is_ : Bool) (s : State) : State :=
  match was, is_ with
  | false, true => runRound p s
  | true, false => disablePool p s
  | true, true | false, false => s

/-- The five common settings as POOL-SET carries them (11.5). -/
def readSettings (p : List Byte) (enable : Bool) : PoolSettings :=
  { enable, periodS := readByte p 2, reservePct := readByte p 3, demandStaleS := readWord p 4, deadband := readByte p 6 }

/-- The STEAM settings as POOL-SET carries them (11.5). -/
def readSteam (p : List Byte) : SteamSettings :=
  { capStaleS := readWord p 7, capFallbackPct := readByte p 9, pLow := readWord p 10, pTrip := readWord p 12,
    pFaultFactor := readWord p 14 }

/-- The HW settings as POOL-SET carries them, with the feeder already read (11.5). -/
def readHw (p : List Byte) (feeder : Option Channel) : HwPart :=
  { feeder, coilYieldPct := readByte p 9, storeKw := readWord p 10, storeTemp := readInt p 12 }

/-- POOL-SET for STEAM, ENABLE read: check 3, then the store (R27, R28). -/
def poolSetSteam (p : List Byte) (enable : Bool) (s : State) : Answer × State :=
  let raw := readSettings p enable
  let rawS := readSteam p
  let x := clampSteam rawS
  if x.pTrip < x.pLow then
    let r := s.pool .steam
    let s₁ := (s.setPool .steam { r with settings := clampSettings raw }).setSteamPart
      { s.pools.steamPart with settings := x }
    (⟨doneStatus (decide (clampSettings raw ≠ raw) || decide (x ≠ rawS)), []⟩,
      applyEnable .steam r.settings.enable enable s₁)
  else (.refuse .range, s)

/-- POOL-SET for an HW pool, ENABLE read: checks 4 to 7, the store, the designation (R27 to R29). -/
def poolSetHw (h : HwPool) (p : List Byte) (enable : Bool) (s : State) : Answer × State :=
  match feederOperand h (readWord p 7) s with
  | .error st => (.refuse st, s)
  | .ok feeder =>
    let raw := readSettings p enable
    let rawH := readHw p feeder
    let r := s.pool (.hw h)
    let old := (s.hwPart h).feeder
    let s₁ := designate h old feeder
      ((s.setPool (.hw h) { r with settings := clampSettings raw }).setHwPart h (clampHw rawH))
    (⟨doneStatus (decide (clampSettings raw ≠ raw) || decide (clampHw rawH ≠ rawH)), []⟩,
      applyEnable (.hw h) r.settings.enable enable s₁)

/-- POOL-SET (R27). -/
def poolSet (p : List Byte) (s : State) : Answer × State :=
  match poolOf (readByte p 0), flagOf (readByte p 1) with
  | some .steam, some en => poolSetSteam p en s
  | some (.hw h), some en => poolSetHw h p en s
  | none, _ | some _, none => (.refuse .range, s)

/-- POOL_SET. -/
def execPoolSet (s : State) : Host.Outcome State Fault Refusal :=
  request .poolSet poolSet s

/-! ### SUPPLY and capacity staleness -/

/-- SUPPLY (R34). -/
def supply (p : List Byte) (s : State) : Answer × State :=
  let kw := readWord p 0
  let x := s.pools.steamPart
  (⟨doneStatus (decide (Config.capacityMax < kw)), []⟩,
    s.setSteamPart { x with cd := min kw Config.capacityMax, capStale := false, capTimer := some x.settings.capStaleS })

/-- SUPPLY as a command. -/
def execSupply (s : State) : Host.Outcome State Fault Refusal :=
  request .supply supply s

/-- CAPACITY_STALENESS_EXPIRY (R35). -/
def capacityStalenessExpiry (s : State) : State :=
  let x := s.pools.steamPart
  if timerDue x.capTimer then raise .stale (s.setSteamPart { x with capStale := true, capTimer := none }) else s

/-- CAPACITY_STALENESS_EXPIRY as a command. -/
def execCapacityStalenessExpiry (s : State) : Host.Outcome State Fault Refusal :=
  running capacityStalenessExpiry s

/-! ### PROFILE-SWAP and REBALANCE -/

/-- PROFILE-SWAP (R36). -/
def profileSwap (p : List Byte) (s : State) : Answer × State :=
  match poolOf (readByte p 0) with
  | none => (.refuse .range, s)
  | some pool =>
    let r := s.pool pool
    if r.swapPending then (.refuse .pending, s)
    else (⟨.done, []⟩, s.setPool pool { r with swapPending := true })

/-- PROFILE_SWAP. -/
def execProfileSwap (s : State) : Host.Outcome State Fault Refusal :=
  request .profileSwap profileSwap s

/-- REBALANCE (R33). -/
def rebalance (p : List Byte) (s : State) : Answer × State :=
  match poolOf (readByte p 0) with
  | none => (.refuse .range, s)
  | some pool =>
    if (s.pool pool).settings.enable then
      let s₁ := runRound pool s
      (⟨.done, be16 (s₁.pool pool).figures.c ++ be16 (s₁.pool pool).totals.sumGrant⟩, s₁)
    else (.refuse .state, s)

/-- REBALANCE as a command. -/
def execRebalance (s : State) : Host.Outcome State Fault Refusal :=
  request .rebalance rebalance s

/-! ### READ-POOL -/

/-- The common settings as a POOL-SET carries them from offset 1. -/
def settingsBytes (x : PoolSettings) : List Byte :=
  [flagByte x.enable, byte x.periodS, byte x.reservePct] ++ be16 x.demandStaleS ++ [byte x.deadband]

/-- The STEAM settings as a POOL-SET carries them from offset 7. -/
def steamBytes (x : SteamSettings) : List Byte :=
  be16 x.capStaleS ++ [byte x.capFallbackPct] ++ be16 x.pLow ++ be16 x.pTrip ++ be16 x.pFaultFactor

/-- The HW settings as a POOL-SET carries them from offset 7, FEEDER as the channel-form address or 0xFFFF. -/
def hwBytes (x : HwPart) : List Byte :=
  be16Opt (x.feeder.map fun c => 32768 + c.val) ++ [byte x.coilYieldPct] ++ be16 x.storeKw ++ beInt x.storeTemp

/-- The operating state every pool has: active bank, SWAP_PENDING, round timer. -/
def operatingBytes (r : PoolRecord) : List Byte :=
  [r.activeBank.code, flagByte r.swapPending, byteOpt r.roundTimer]

/-- The last figures and the round totals. -/
def figuresBytes (r : PoolRecord) : List Byte :=
  be16 r.figures.b ++ be16 r.figures.a ++ be16 r.figures.k ++ be16 r.figures.h ++ be16 r.figures.c
    ++ be24 r.totals.sumE ++ be16 r.totals.sumGrant ++ [byte r.totals.eligibleCount, byte r.totals.curtailedCount]
    ++ be16 r.roundCount

/-- READ-POOL data (11.5): 43 bytes for STEAM, 36 for an HW pool. -/
def poolBytes (pool : Pool) (s : State) : List Byte :=
  let r := s.pool pool
  let head := poolCode pool :: settingsBytes r.settings
  match pool with
  | .steam =>
    let x := s.pools.steamPart
    head ++ steamBytes x.settings ++ operatingBytes r ++ be16 x.cd ++ [flagByte x.capStale] ++ be16Opt x.capTimer
      ++ figuresBytes r
  | .hw h => head ++ hwBytes (s.hwPart h) ++ operatingBytes r ++ figuresBytes r

/-- READ-POOL (R45). -/
def readPool (p : List Byte) (s : State) : Answer × State :=
  match poolOf (readByte p 0) with
  | none => (.refuse .range, s)
  | some pool => (⟨.done, poolBytes pool s⟩, s)

/-- READ_POOL. -/
def execReadPool (s : State) : Host.Outcome State Fault Refusal :=
  request .readPool readPool s

end Sys2Proof.Machine
end

