-- ==== Sys2Proof/Machine/Outlets.lean ====
section
/-! DEFINITION. The Outlet Table's requests (R6 to R21), REHOME and FAULT-CLEAR (R127, R128), warm-up completion (R63, R64)
and READ-OUTLET (R24). -/

namespace Sys2Proof.Machine

/-! ### OUTLET-SET -/

/-- The fixed part as OUTLET-SET carries it, with the codes already read (11.5). -/
def readFixed (p : List Byte) (pool : Pool) (autoRecover : Bool) : FixedPart :=
  { pool, ratedKw := readWord p 3, strokeS := readWord p 5, fallbackKw := readWord p 7, autoRecover,
    warmTemp := readInt p 10, warmMaxS := readWord p 12 }

/-- The record an OUTLET-SET creates (R9), in the STATE given. -/
def newOutlet (fx : FixedPart) (prof : Profile) (st : OutletState) : Outlet :=
  { fixed := fx, setA := prof, setB := prof, bars := { host := false, prog := false, all := false }, state := st,
    grant := 0, effDemand := 0, assumedDraw := 0, feederOf := none, feederDemand := 0, warmTimer := none,
    recovery := false, lastFault := none }

/-- The record an OUTLET-SET replaces in place (R10). -/
def replaceOutlet (fx : FixedPart) (prof : Profile) (o : Outlet) : Outlet :=
  { o with fixed := fx, setA := prof, setB := prof, grant := 0, effDemand := 0 }

/-- What an executed OUTLET-SET does to the neighbouring blocks (R11): the host demand record is cleared, the tolerance
counter is loaded, FLOOR_CUT is cleared. -/
def initNeighbours (c : Channel) (tolerance : Nat) (s : State) : State :=
  (s.setDemand c .absent).setCurtailment c { counter := tolerance, floorCut := false }

/-- An OUTLET-SET on an UNCONFIGURED channel (R9): HELD in a handed-off bank, otherwise HOMING with a homing request. -/
def createOutlet (c : Channel) (fx : FixedPart) (prof : Profile) (s : State) : State :=
  if s.handedOff c then initNeighbours c prof.tolerance (s.setOutlet c (some (newOutlet fx prof .held)))
  else requestHoming c (initNeighbours c prof.tolerance (s.setOutlet c (some (newOutlet fx prof .homing))))

/-- Checks 3 to 5 of OUTLET-SET on a present record (R6). -/
def replaceCheck (c : Channel) (pool : Pool) (o : Outlet) (s : State) : Option Status :=
  match o.state with
  | .homing | .warming | .serving | .held => some .state
  | .idle | .locked | .faulted =>
    if o.feederOf.isSome ∧ pool ≠ .steam then some .conflict
    else if (s.claim c).holder.isSome then some .conflict
    else none

/-- OUTLET-SET with the codes read and the plain ranges checked: the clamps and the write (R6 to R11). -/
def writeOutlet (c : Channel) (rawF : FixedPart) (rawP : Profile) (s : State) : Answer × State :=
  let cf := clampFixed rawF
  let cp := clampProfile cf.ratedKw rawP
  let fx := hwFixed cf
  let prof := hwProfile cf.pool cp
  let ans : Answer := ⟨doneStatus (decide (cf ≠ rawF) || decide (cp ≠ rawP)), [byte c.val]⟩
  match s.outlet c with
  | none => (ans, createOutlet c fx prof s)
  | some o =>
    match replaceCheck c rawF.pool o s with
    | some st => (.refuse st, s)
    | none => (ans, initNeighbours c prof.tolerance (s.setOutlet c (some (replaceOutlet fx prof o))))

/-- OUTLET-SET (R6). -/
def outletSet (p : List Byte) (s : State) : Answer × State :=
  atOutlet p s fun c =>
    match poolOf (readByte p 2), flagOf (readByte p 9), classOf (readByte p 14) with
    | some pool, some ar, some cls =>
      let fx := readFixed p pool ar
      if 30 ≤ fx.strokeS ∧ fx.strokeS ≤ 600 ∧ fx.ratedKw ≠ 0 then writeOutlet c fx (readProfile p 14 cls) s
      else (.refuse .range, s)
    | _, _, _ => (.refuse .range, s)

/-- OUTLET_SET. -/
def execOutletSet (s : State) : Host.Outcome State Fault Refusal :=
  request .outletSet outletSet s

/-! ### OUTLET-DROP -/

/-- The STATE, feeder and claim checks of OUTLET-DROP (R12). -/
def dropCheck (c : Channel) (s : State) : Option Status :=
  match s.outlet c with
  | none => some .state
  | some o =>
    match o.state with
    | .homing | .warming | .serving | .held => some .state
    | .idle | .locked | .faulted =>
      if o.feederOf.isSome then some .conflict
      else if (s.claim c).holder.isSome then some .conflict
      else none

/-- OUTLET-DROP (R12, R13). -/
def outletDrop (p : List Byte) (s : State) : Answer × State :=
  atOutlet p s fun c =>
    match dropCheck c s with
    | some st => (.refuse st, s)
    | none => (⟨.done, [byte c.val]⟩, stopChannel c ((s.setOutlet c none).setDemand c .absent))

/-- OUTLET_DROP. -/
def execOutletDrop (s : State) : Host.Outcome State Fault Refusal :=
  request .outletDrop outletDrop s

/-! ### PROFILE-SET -/

/-- A profile set of a record written. -/
def writeSet (b : ProfileBank) (x : Profile) (o : Outlet) : Outlet :=
  match b with
  | .a => { o with setA := x }
  | .b => { o with setB := x }

/-- PROFILE-SET (R14, R15). -/
def profileSet (p : List Byte) (s : State) : Answer × State :=
  atOutlet p s fun c =>
    match bankOfCode (readByte p 2), classOf (readByte p 3) with
    | some b, some cls =>
      match s.outlet c with
      | none => (.refuse .state, s)
      | some o =>
        let r := s.pool o.fixed.pool
        if b = r.activeBank then (.refuse .state, s)
        else if r.swapPending then (.refuse .pending, s)
        else
          let raw := readProfile p 3 cls
          let x := clampProfile o.fixed.ratedKw raw
          (⟨doneStatus (decide (x ≠ raw)), [byte c.val]⟩,
            s.setOutlet c (some (writeSet b (hwProfile o.fixed.pool x) o)))
    | _, _ => (.refuse .range, s)

/-- PROFILE_SET. -/
def execProfileSet (s : State) : Host.Outcome State Fault Refusal :=
  request .profileSet profileSet s

/-! ### BAR-SET -/

/-- BAR_ALL becomes set (R18, R19): an eligible outlet enters LOCKED and its valve gets target 0. -/
def lockOutlet (c : Channel) (s : State) : State :=
  match s.outlet c with
  | none => s
  | some o =>
    if o.state.eligible then
      giveTarget c 0 (s.setOutlet c (some
        { o with state := .locked, grant := 0, effDemand := 0, assumedDraw := 0, warmTimer := none }))
    else s

/-- BAR_ALL becomes clear (R21): a LOCKED outlet enters IDLE. -/
def unlockOutlet (c : Channel) (s : State) : State :=
  s.modifyOutlet c fun o => if o.state = .locked then { o with state := .idle } else o

/-- The effects of a change of the bars on STATE and on program steps (R16 to R19, R21, R151). -/
def applyBars (c : Channel) (old new : Bars) (s : State) : State :=
  let s₁ :=
    if old.all = false ∧ new.all = true then lockOutlet c s
    else if old.all = true ∧ new.all = false then unlockOutlet c s
    else s
  if (old.all = false ∧ new.all = true) ∨ (old.prog = false ∧ new.prog = true) then failStepsOn c .barred s₁ else s₁

/-- BAR-SET (R16). The three actions are checked before the STATE. -/
def barSet (p : List Byte) (s : State) : Answer × State :=
  atOutlet p s fun c =>
    if 2 < readByte p 2 ∨ 2 < readByte p 3 ∨ 2 < readByte p 4 then (.refuse .range, s)
    else
      match s.outlet c with
      | none => (.refuse .state, s)
      | some o =>
        let new : Bars :=
          { host := (barAction (readByte p 2) o.bars.host).getD o.bars.host,
            prog := (barAction (readByte p 3) o.bars.prog).getD o.bars.prog,
            all := (barAction (readByte p 4) o.bars.all).getD o.bars.all }
        (⟨.done, [byte c.val]⟩, applyBars c o.bars new (s.setOutlet c (some { o with bars := new })))

/-- BAR_SET. -/
def execBarSet (s : State) : Host.Outcome State Fault Refusal :=
  request .barSet barSet s

/-! ### REHOME and FAULT-CLEAR -/

/-- REHOME (R127). -/
def rehome (p : List Byte) (s : State) : Answer × State :=
  atOutlet p s fun c =>
    if s.isEligible c then
      (⟨.done, [byte c.val]⟩, requestHoming c (s.modifyOutlet c (leaveEligible .homing)))
    else (.refuse .state, s)

/-- REHOME as a command. -/
def execRehome (s : State) : Host.Outcome State Fault Refusal :=
  request .rehome rehome s

/-- FAULT-CLEAR (R128). -/
def faultClear (p : List Byte) (s : State) : Answer × State :=
  atOutlet p s fun c =>
    match s.outlet c with
    | none => (.refuse .state, s)
    | some o =>
      if o.state = .faulted ∧ s.handedOff c = false then
        (⟨.done, [byte c.val]⟩, requestHoming c (s.setOutlet c (some { o with state := .homing })))
      else (.refuse .state, s)

/-- FAULT_CLEAR. -/
def execFaultClear (s : State) : Host.Outcome State Fault Refusal :=
  request .faultClear faultClear s

/-! ### Warm-up completion -/

/-- Warm-up ends: SERVING, warm timer stopped (R63, R64). -/
def endWarmUp (o : Outlet) : Outlet :=
  { o with state := .serving, warmTimer := none }

/-- WARM_TIMER_EXPIRY (R64). -/
def warmTimerExpiry (c : Channel) (s : State) : State :=
  s.modifyOutlet c fun o => if o.state = .warming ∧ timerDue o.warmTimer = true then endWarmUp o else o

/-- WARM_TIMER_EXPIRY as a command. -/
def execWarmTimerExpiry (c : Channel) (s : State) : Host.Outcome State Fault Refusal :=
  running (warmTimerExpiry c) s

/-! ### READ-OUTLET -/

/-- The code of an outlet STATE; an absent record is UNCONFIGURED (11.5). -/
def stateCode (o : Option Outlet) : Byte :=
  match o with
  | none => 0
  | some o =>
    match o.state with
    | .homing => 1
    | .idle => 2
    | .warming => 3
    | .serving => 4
    | .held => 5
    | .locked => 6
    | .faulted => 7

/-- The fixed part as OUTLET-SET carries it: 12 bytes. -/
def fixedBytes (x : FixedPart) : List Byte :=
  poolCode x.pool :: (be16 x.ratedKw ++ be16 x.strokeS ++ be16 x.fallbackKw ++ [flagByte x.autoRecover]
    ++ beInt x.warmTemp ++ be16 x.warmMaxS)

/-- The profile fields as OUTLET-SET carries them: 9 bytes. -/
def profileBytes (x : Profile) : List Byte :=
  x.cls.code :: (be16 x.floorKw ++ be16 x.maxKw ++ [byte x.weight] ++ be16 x.warmKw ++ [byte x.tolerance])

/-- The record parts of READ-OUTLET, offsets 2 to 35; zero bytes where the record is absent (11.5, "Absent item"). -/
def recordBytes (o : Option Outlet) (s : State) : List Byte :=
  match o with
  | none => List.replicate 34 0
  | some o =>
    fixedBytes o.fixed ++ profileBytes o.setA ++ profileBytes o.setB
      ++ [((s.pool o.fixed.pool).activeBank).code, flagByte o.bars.host, flagByte o.bars.prog, flagByte o.bars.all]

/-- The dynamic part, offsets 36 to 47; an absent record has the values of 1.5. -/
def dynamicBytes (o : Option Outlet) : List Byte :=
  match o with
  | none => List.replicate 6 0 ++ [0xFF, 0, 0, 0] ++ be16Opt none
  | some o =>
    be16 o.grant ++ be16 o.effDemand ++ be16 o.assumedDraw ++ [(o.feederOf.map hwCode).getD 0xFF]
      ++ be16 o.feederDemand ++ [flagByte o.recovery] ++ be16Opt o.warmTimer

/-- The host demand record, offsets 48 to 53: value and timer are absent items while ABSENT, and the timer of a STALE record
is given as 0 (R24). -/
def demandBytes (d : HostDemand) : List Byte :=
  match d with
  | .absent => [0, 0, 0, 0, 0, 0]
  | .current kw t => 1 :: (be16 kw ++ [0] ++ be16 t)
  | .stale kw => 1 :: (be16 kw ++ [1] ++ be16 0)

/-- Tolerance counter and FLOOR_CUT, absent items where the record is absent (R24). -/
def curtailBytes (o : Option Outlet) (x : Curtailment) : List Byte :=
  match o with
  | none => [0, 0]
  | some _ => [byte x.counter, flagByte x.floorCut]

/-- Holder and waiters of the claim (11.5). -/
def claimBytes (x : Claim) : List Byte :=
  match x.holder with
  | none => [0xFF, 0, 0]
  | some h => [byte h.slot.val, byte h.step, byte x.waiters.length]

/-- MOTION: 0 STILL, 1 OPENING, 2 CLOSING (11.5). -/
def motionCode (m : Option Move) : Byte :=
  match m with
  | none => 0
  | some m =>
    match m.dir with
    | .opening => 1
    | .closing => 2

/-- The queue tier: 0 NONE, 1 CLOSING, 2 OPENING (11.5). -/
def tierCode (d : Option MoveDir) : Byte :=
  match d with
  | none => 0
  | some .closing => 1
  | some .opening => 2

/-- The position record, offsets 59 to 68. -/
def positionBytes (c : Channel) (s : State) : List Byte :=
  let p := s.position c
  be16 p.est ++ [flagByte p.known] ++ be16Opt p.target ++ [motionCode p.move] ++ be16 p.travel
    ++ [flagByte p.drift, tierCode (s.queuedTier c)]

/-- READ-OUTLET data: 69 bytes (11.5). -/
def outletBytes (c : Channel) (s : State) : List Byte :=
  let o := s.outlet c
  [byte c.val, stateCode o] ++ recordBytes o s ++ dynamicBytes o ++ demandBytes (s.demand c)
    ++ curtailBytes o (s.curtailment c) ++ claimBytes (s.claim c) ++ positionBytes c s

/-- READ-OUTLET (R24). -/
def readOutlet (p : List Byte) (s : State) : Answer × State :=
  atOutlet p s fun c => (⟨.done, outletBytes c s⟩, s)

/-- READ_OUTLET. -/
def execReadOutlet (s : State) : Host.Outcome State Fault Refusal :=
  request .readOutlet readOutlet s

end Sys2Proof.Machine
end

