-- ==== Sys2Proof/Machine/Intake.lean ====
section
/-! DEFINITION. Demand Intake: DEMAND (R72 to R76) and the staleness timer (R78). -/

namespace Sys2Proof.Machine

/-- The checks of a demand item on a channel (R73, checks 2 to 4). -/
def itemCheck (o : Option Outlet) : Option Status :=
  match o with
  | none => some .state
  | some o =>
    if o.feederOf.isSome then some .state
    else if o.bars.host || o.bars.all then some .barred
    else none

/-- One demand item (R73 to R75): its status, and the record it leaves. -/
def demandItem (addr kw : Nat) (s : State) : Status × State :=
  match translate s.xlat addr with
  | .error st => (st, s)
  | .ok c =>
    match itemCheck (s.outlet c), s.outlet c with
    | none, some o =>
      (doneStatus (decide (o.fixed.ratedKw < kw)),
        s.setDemand c (.current (min kw o.fixed.ratedKw) (s.pool o.fixed.pool).settings.demandStaleS))
    | some st, _ => (st, s)
    | none, none => (.state, s)

/-- The items of a payload in order, 4 bytes each: their status codes and the state they leave (R72, R76). -/
def demandItems : Nat → List Byte → State → List Byte × State
  | 0, _, s => ([], s)
  | n + 1, p, s =>
    let r := demandItem (readWord p 0) (readWord p 2) s
    let rs := demandItems n (p.drop 4) r.2
    (r.1.code :: rs.1, rs.2)

/-- DEMAND (R72): DONE whatever the items' outcomes. -/
def demand (p : List Byte) (s : State) : Answer × State :=
  let r := demandItems (p.length / 4) p s
  (⟨.done, r.1⟩, r.2)

/-- DEMAND as a command. -/
def execDemand (s : State) : Host.Outcome State Fault Refusal :=
  request .demand demand s

/-- STALENESS_TIMER_EXPIRY (R78). -/
def stalenessTimerExpiry (c : Channel) (s : State) : State :=
  match s.demand c with
  | .current kw 0 => raise .stale (s.setDemand c (.stale kw))
  | .current _ (_ + 1) | .absent | .stale _ => s

/-- STALENESS_TIMER_EXPIRY as a command. -/
def execStalenessTimerExpiry (c : Channel) (s : State) : Host.Outcome State Fault Refusal :=
  running (stalenessTimerExpiry c) s

end Sys2Proof.Machine
end

