-- ==== Sys2Proof/Machine/Motion.lean ====
section
/-! DEFINITION. The commands of the Drive Unit's timers and limit inputs (R105 to R108, R111), and the Hand-off Monitor
(R129 to R133). -/

namespace Sys2Proof.Machine

/-- MOVE_TIMER_EXPIRY. -/
def execMoveTimerExpiry (c : Channel) (s : State) : Host.Outcome State Fault Refusal :=
  running (moveTimerExpiry c) s

/-- CHECK_TIMER_EXPIRY. -/
def execCheckTimerExpiry (c : Channel) (s : State) : Host.Outcome State Fault Refusal :=
  running (checkTimerExpiry c) s

/-- PAUSE_TIMER_EXPIRY. -/
def execPauseTimerExpiry (c : Channel) (s : State) : Host.Outcome State Fault Refusal :=
  running (pauseTimerExpiry c) s

/-- LIMIT_EVENT. -/
def execLimitEvent (c : Channel) (line : LimitLine) (active : Bool) (s : State) : Host.Outcome State Fault Refusal :=
  .next (limitEvent c line active s)

/-! ### Bank hand-off -/

/-- The channels of a bank, in ascending order. -/
def bankChannels (b : BankId) : List Channel :=
  (indices 48).filter fun c => decide (bankOf c = b)

/-- The level of a BHO input. -/
def setBho (b : BankId) (level : Bool) (s : State) : State :=
  { s with handoff := { s.handoff with bho := s.handoff.bho.set b level } }

/-- HANDED_OFF of a bank, which BHA follows. -/
def setHandedOff (b : BankId) (v : Bool) (s : State) : State :=
  { s with handoff := { s.handoff with handedOff := s.handoff.handedOff.set b v } }

/-- An assertion at one channel (R130): channel stop, KNOWN NO. -/
def releaseDrive (s : State) (c : Channel) : State :=
  (stopChannel c s).modifyPosition c fun p => { p with known := false }

/-- An assertion at one outlet (R131): HELD, and its steps fail with HANDOFF (R152). -/
def holdOutlet (s : State) (c : Channel) : State :=
  match s.outlet c with
  | none => s
  | some o =>
    match o.state with
    | .idle | .warming | .serving => failStepsOn c .handoff (s.setOutlet c (some (leaveEligible .held o)))
    | .homing | .locked => failStepsOn c .handoff (s.setOutlet c (some { o with state := .held }))
    | .held | .faulted => s

/-- A bank is taken into hand-off (R130, R131), its input already asserted. -/
def takeBank (b : BankId) (s : State) : State :=
  let s₁ := (bankChannels b).foldl releaseDrive s
  let s₂ := (bankChannels b).foldl holdOutlet s₁
  raise .handoff (setHandedOff b true s₂)

/-- BHO_ASSERTION: a change of the input from negated to asserted (R129). While RSTn is low the input changes and no event
is taken (R189). -/
def bhoAssertion (b : BankId) (s : State) : State :=
  if s.handoff.bho.get b then s
  else
    let s₁ := setBho b true s
    if s.rstLow || s.handoff.handedOff.get b then s₁ else takeBank b s₁

/-- BHO_ASSERTION as a command. -/
def execBhoAssertion (b : BankId) (s : State) : Host.Outcome State Fault Refusal :=
  .next (bhoAssertion b s)

/-- A release at one outlet (R133): a HELD outlet enters HOMING with a homing request. -/
def rehomeHeld (s : State) (c : Channel) : State :=
  match s.outlet c with
  | none => s
  | some o => if o.state = .held then requestHoming c (s.setOutlet c (some { o with state := .homing })) else s

/-- A bank is returned to the part (R133), its input already negated. -/
def returnBank (b : BankId) (s : State) : State :=
  raise .handoff ((bankChannels b).foldl rehomeHeld (setHandedOff b false s))

/-- BHO_RELEASE: a change of the input from asserted to negated (R129). -/
def bhoRelease (b : BankId) (s : State) : State :=
  if s.handoff.bho.get b then
    let s₁ := setBho b false s
    if s.rstLow || !(s.handoff.handedOff.get b) then s₁ else returnBank b s₁
  else s

/-- BHO_RELEASE as a command. -/
def execBhoRelease (b : BankId) (s : State) : Host.Outcome State Fault Refusal :=
  .next (bhoRelease b s)

end Sys2Proof.Machine
end

