-- ==== Sys2Proof/Machine/Sensors.lean ====
section
/-! DEFINITION. The Sensor Scanner (R158 to R163) with what a branch sample hands on (R63, R147, R148, R152), and the Plant
Clock (R164, R165) with the ticks of the second timers. -/

namespace Sys2Proof.Machine

/-! ### Sample events -/

/-- A reading within the input's valid range, both ends included (9.1, R159). -/
def readingValid (i : InputId) (r : Int) : Bool :=
  if i = headerInput then decide (0 ≤ r) && decide (r ≤ 1600) else decide (-200 ≤ r) && decide (r ≤ 2000)

/-- The input record after a sample event (R160). -/
def sampleRecord (valid : Bool) (r : Int) (x : Sensor) : Sensor :=
  if valid then
    { lastGood := r, badRun := 0, goodRun := min 3 (x.goodRun + 1), faulted := x.faulted && decide (x.goodRun + 1 < 3) }
  else
    { x with badRun := min 2 (x.badRun + 1), goodRun := 0, faulted := x.faulted || decide (2 ≤ x.badRun + 1) }

/-- Warm-up completion by a sample (R63): a WARMING outlet and a reading at or above WARM_TEMP. -/
def sampleWarmUp (c : Channel) (r : Int) (s : State) : State :=
  s.modifyOutlet c fun o => if o.state = .warming ∧ o.fixed.warmTemp ≤ r then endWarmUp o else o

/-- The slot whose step holds the claim on the outlet and needs a temperature, with that step (R147, R152). -/
def tempHolder (c : Channel) (s : State) : Option (SlotId × Step) :=
  match (s.claim c).holder with
  | none => none
  | some h =>
    match (s.slot h.slot).currentStep with
    | none => none
    | some st => if st.needsTemp then some (h.slot, st) else none

/-- The step reaches its temperature (R147): HOLDING, the reach timer stopped, the hold timer started; a hold timer started
at 0 expires at once. -/
def reachTemp (i : SlotId) (st : Step) (s : State) : State :=
  let s₁ := s.modifySlot i fun x => { x with phase := .holding, reach := none, hold := some (st.holdMin * 60) }
  if st.holdMin = 0 then runDuty [.pass i] s₁ else s₁

/-- A dip (R148). -/
def dip (i : SlotId) (st : Step) (s : State) : State :=
  let n := (s.slot i).dips + 1
  let s₁ := s.modifySlot i fun x => { x with dips := n }
  if n = 3 then runDuty [.fail i .unstable] s₁
  else s₁.modifySlot i fun x => { x with phase := .reaching, hold := none, reach := some (st.reachMin * 60) }

/-- What a sample does to the step that holds the claim on the outlet (R147). -/
def sampleStep (c : Channel) (r : Int) (s : State) : State :=
  match tempHolder c s with
  | none => s
  | some (i, st) =>
    match (s.slot i).phase with
    | .reaching => if st.targetTemp ≤ r then reachTemp i st s else s
    | .holding => if r < st.targetTemp - 20 then dip i st s else s
    | .none | .claiming => s

/-- What a fault entry of the branch input does to the step that holds the claim (R152, R162). -/
def sensorFailure (c : Channel) (s : State) : State :=
  match tempHolder c s with
  | none => s
  | some (i, _) =>
    match (s.slot i).phase with
    | .reaching | .holding => runDuty [.fail i .sensor] s
    | .none | .claiming => s

/-- What a sample of a branch input hands on (R162): `before` and `x` are the record before and after the event. Warm-up
is taken before the program step (log 18). -/
def handSample (c : Channel) (valid : Bool) (r : Int) (before x : Sensor) (s : State) : State :=
  if valid ∧ x.faulted = false then sampleStep c r (sampleWarmUp c r s)
  else if before.faulted = false ∧ x.faulted = true then sensorFailure c s
  else s

/-- A sample event (R160 to R162): the record, the SENSOR raise at a fault entry or exit, and the two consumers. -/
def sampleEvent (i : InputId) (r : Int) (s : State) : State :=
  let before := s.sensor i
  let x := sampleRecord (readingValid i r) r before
  let s₁ := s.setSensor i x
  let s₂ := if x.faulted = before.faulted then s₁ else raise .sensor s₁
  match channelOf i.val with
  | some c => handSample c (readingValid i r) r before x s₂
  | none => s₂

/-- SAMPLE_EVENT. -/
def execSampleEvent (i : InputId) (reading : Int) (s : State) : Host.Outcome State Fault Refusal :=
  running (sampleEvent i reading) s

/-! ### READ-SENSORS -/

/-- The input state byte: bit 0 FAULT, bits 1 and 2 BAD_RUN, bits 3 and 4 GOOD_RUN (11.5). -/
def sensorStateByte (x : Sensor) : Byte :=
  flagByte x.faulted ||| byte (2 * x.badRun) ||| byte (8 * x.goodRun)

/-- The 3 bytes of an input (11.5). -/
def sensorBytes (x : Sensor) : List Byte :=
  beInt x.lastGood ++ [sensorStateByte x]

/-- The 4 bytes of the clock (11.5). -/
def clockBytes (x : PlantClock) : List Byte :=
  be16 x.minute ++ [byte x.second, flagByte x.isSet]

/-- READ-SENSORS (R163). -/
def readSensors (p : List Byte) (s : State) : Answer × State :=
  let first := readByte p 0
  let count := readByte p 1
  if 50 < first ∨ count = 0 ∨ 24 < count ∨ 51 < first + count then (.refuse .range, s)
  else (⟨.done, clockBytes s.clock ++ ((s.sensors.toList.drop first).take count).flatMap sensorBytes⟩, s)

/-- READ_SENSORS. -/
def execReadSensors (s : State) : Host.Outcome State Fault Refusal :=
  request .readSensors readSensors s

/-! ### Ticks of the two timebases -/

/-- One second passes at a host demand record. -/
def tickDemand (d : HostDemand) : HostDemand :=
  match d with
  | .current kw n => .current kw (n - 1)
  | .absent => .absent
  | .stale kw => .stale kw

/-- One second passes at an outlet record. -/
def tickOutlet (o : Option Outlet) : Option Outlet :=
  o.map fun o => { o with warmTimer := tickTimer 1 o.warmTimer }

/-- One second passes at a pool record. -/
def tickPool (r : PoolRecord) : PoolRecord :=
  { r with roundTimer := tickTimer 1 r.roundTimer }

/-- One second passes at the pools. -/
def tickPools (x : Pools) : Pools :=
  { x with steam := tickPool x.steam, hw1 := tickPool x.hw1, hw2 := tickPool x.hw2,
           steamPart := { x.steamPart with capTimer := tickTimer 1 x.steamPart.capTimer } }

/-- One second passes at a program slot. -/
def tickSlot (x : ProgSlot) : ProgSlot :=
  { x with reach := tickTimer 1 x.reach, hold := tickTimer 1 x.hold, gap := tickTimer 1 x.gap }

/-- Every timer counted in seconds counts one tick of the one-second timebase (R165). -/
def tickSeconds (s : State) : State :=
  { s with outlets := s.outlets.map tickOutlet, pools := tickPools s.pools, demands := s.demands.map tickDemand,
           duty := { s.duty with slots := s.duty.slots.map tickSlot } }

/-- Every timer counted on the millisecond timebase counts `n` ticks (R103, R178). -/
def advanceMs (n : Nat) (s : State) : State :=
  { s with drive := { s.drive with positions := s.drive.positions.map (advancePosition n) },
           link := { s.link with rxGap := tickTimer n s.link.rxGap } }

/-- The clock after one second, and the minute of the minute event if there is one (R164). -/
def advanceClock (x : PlantClock) : PlantClock × Option Nat :=
  if x.second + 1 < 60 then ({ x with second := x.second + 1 }, none)
  else
    let m := (x.minute + 1) % Config.weekMinutes
    ({ x with second := 0, minute := m }, some m)

/-- The slots whose wait a minute event ends, in ascending order (R142). -/
def wokenSlots (m : Nat) (s : State) : List SlotId :=
  (indices 4).filter fun i => decide ((s.slot i).state = .waiting) && decide ((s.slot i).waitMinute = some m)

/-- A minute event (R142). -/
def minuteEvent (m : Nat) (s : State) : State :=
  (wokenSlots m s).foldl (fun s i => beginPass i m s) s

/-- A tick of the one-second timebase (R164): the millisecond timebase comes to the end of its second, the second timers
count, the clock advances, and a minute event goes out if the minute advanced (log 3). DESIGN CHOICE (log 29), unsafe: the spec does
not say whether an expiry due at a tick comes before or after the tick's advance of the clock and its minute event; here the tick
only counts the timers, and each expiry is a later command, so it comes after. -/
def clockTick (s : State) : State :=
  let s₁ := tickSeconds (advanceMs (Config.msPerSecond - s.msPhase) s)
  let r := advanceClock s₁.clock
  let s₂ := { s₁ with msPhase := 0, clock := r.1 }
  match r.2 with
  | some m => minuteEvent m s₂
  | none => s₂

/-- CLOCK_TICK. -/
def execClockTick (s : State) : Host.Outcome State Fault Refusal :=
  running clockTick s

/-! ### CLOCK-SET -/

/-- CLOCK-SET (R165). -/
def clockSet (p : List Byte) (s : State) : Answer × State :=
  if Config.weekMinutes ≤ readWord p 0 ∨ 60 ≤ readByte p 2 then (.refuse .range, s)
  else (⟨.done, []⟩, { s with clock := { minute := readWord p 0, second := readByte p 2, isSet := true } })

/-- CLOCK_SET. -/
def execClockSet (s : State) : Host.Outcome State Fault Refusal :=
  request .clockSet clockSet s

end Sys2Proof.Machine
end

