-- ==== Sys2Proof/Machine/Programs.lean ====
section
/-! DEFINITION. The requests and timer events of the Duty Program Unit: PROG-LOAD (R138 to R140), PROG-START (R141),
PROG-STOP (R143), the expiries of the reach, hold and gap timers (R150, R149, R154) and READ-PROG (R156). -/

namespace Sys2Proof.Machine

/-! ### PROG-LOAD -/

/-- The step at an offset of a PROG-LOAD payload as carried: outlet address, class code, and the other fields (11.5). -/
structure CarriedStep where
  addr : Nat
  kw : Nat
  clsCode : Nat
  targetTemp : Int
  reachMin : Nat
  holdMin : Nat
deriving DecidableEq, Repr

/-- The 9 bytes of a step from an offset (11.5). -/
def readStep (p : List Byte) (i : Nat) : CarriedStep :=
  { addr := readWord p i, kw := readWord p (i + 2), clsCode := readByte p (i + 4), targetTemp := readInt p (i + 5),
    reachMin := readByte p (i + 7), holdMin := readByte p (i + 8) }

/-- The steps a part carries from an offset to its end. -/
def readSteps (p : List Byte) (off : Nat) : List CarriedStep :=
  (List.range ((p.length - off) / 9)).map fun k => readStep p (off + 9 * k)

/-- A PROG-LOAD refusal: the status and the step's index, or 0 (R138, R181). -/
def refuseStep (st : Status) (idx : Nat) : Answer :=
  ⟨st, [byte idx]⟩

/-- Each step's CLASS, in request order (R138 check 4, R139 check 3); the first step counts as `k`. -/
def checkClasses (k : Nat) (xs : List CarriedStep) : Option Answer :=
  match xs with
  | [] => none
  | x :: rest => if (classOf x.clsCode).isNone then some (refuseStep .range k) else checkClasses (k + 1) rest

/-- Each step's address translated, in request order (R138 check 5, R139 check 4); the steps come out as carried. -/
def resolveSteps (tr : Translator) (k : Nat) (xs : List CarriedStep) : Except Answer (List Step) :=
  match xs with
  | [] => .ok []
  | x :: rest =>
    match translate tr x.addr with
    | .error st => .error (refuseStep st k)
    | .ok c =>
      match resolveSteps tr (k + 1) rest with
      | .error a => .error a
      | .ok ys =>
        .ok ({ channel := c, kw := x.kw, cls := (classOf x.clsCode).getD .sanitary, targetTemp := x.targetTemp,
               reachMin := x.reachMin, holdMin := x.holdMin } :: ys)

/-- The classes and then the addresses of the carried steps. -/
def carriedSteps (tr : Translator) (xs : List CarriedStep) : Except Answer (List Step) :=
  match checkClasses 1 xs with
  | some a => .error a
  | none => resolveSteps tr 1 xs

/-- A slot may be loaded anew in this state (R138, check 2). -/
def SlotState.loadable : SlotState → Bool
  | .empty | .loaded | .done | .faulted | .stopped => true
  | .waiting | .running => false

/-- The slot after a FIRST part (R138). -/
def loadedSlot (steps : List Step) (loops : Nat) (start : Option Nat) (interval : Nat) (cont : Bool) : ProgSlot :=
  { steps, loops, start, intervalMin := interval, continueOnFault := cont,
    state := if steps.isEmpty then .empty else .loaded, loopsLeft := loops, waitMinute := none, loopStart := 0, curStep := 0,
    phase := .none, reach := none, hold := none, gap := none, dips := 0, faultsSeen := false,
    results := steps.map fun _ => .notRun }

/-- Whether R140 clamps a value of a step. -/
def clampsStep (x : Step) : Bool :=
  decide (clampStep x ≠ x)

/-- PROG-LOAD FIRST with the slot and the settings read: checks 4 to 6 and the load (R138). -/
def loadFirst (i : SlotId) (p : List Byte) (start : Option Nat) (cont : Bool) (s : State) : Answer × State :=
  match carriedSteps s.xlat (readSteps p 8) with
  | .error a => (a, s)
  | .ok steps =>
    if s.freeSteps + (s.slot i).steps.length < steps.length then (refuseStep .noSpace 0, s)
    else
      (⟨doneStatus (steps.any clampsStep), []⟩,
        s.setSlot i (loadedSlot (steps.map clampStep) (readByte p 2) start (readWord p 5) cont))

/-- PROG-LOAD marked FIRST, or with an unknown part code (R138). -/
def progLoadFirst (p : List Byte) (s : State) : Answer × State :=
  match slotOf (readByte p 0) with
  | none => (refuseStep .range 0, s)
  | some i =>
    if partCode p ≠ 0 then (refuseStep .range 0, s)
    else if (s.slot i).state.loadable = false then (refuseStep .state 0, s)
    else
      match startOf (readWord p 3), flagOf (readByte p 7) with
      | some start, some cont =>
        if readWord p 5 < Config.weekMinutes then loadFirst i p start cont s else (refuseStep .range 0, s)
      | _, _ => (refuseStep .range 0, s)

/-- PROG_LOAD_FIRST. -/
def execProgLoadFirst (s : State) : Host.Outcome State Fault Refusal :=
  request .progLoadFirst progLoadFirst s

/-- The slot after a NEXT part: the steps appended, their results NOT_RUN (R139). -/
def appendSteps (steps : List Step) (x : ProgSlot) : ProgSlot :=
  { x with steps := x.steps ++ steps, results := x.results ++ steps.map fun _ => .notRun }

/-- PROG-LOAD marked NEXT (R139). -/
def progLoadNext (p : List Byte) (s : State) : Answer × State :=
  match slotOf (readByte p 0) with
  | none => (refuseStep .range 0, s)
  | some i =>
    if (s.slot i).state ≠ .loaded then (refuseStep .state 0, s)
    else
      match carriedSteps s.xlat (readSteps p 2) with
      | .error a => (a, s)
      | .ok steps =>
        if Config.slotSteps < (s.slot i).steps.length + steps.length then (refuseStep .range 0, s)
        else if s.freeSteps < steps.length then (refuseStep .noSpace 0, s)
        else (⟨doneStatus (steps.any clampsStep), []⟩, s.modifySlot i (appendSteps (steps.map clampStep)))

/-- PROG_LOAD_NEXT. -/
def execProgLoadNext (s : State) : Host.Outcome State Fault Refusal :=
  request .progLoadNext progLoadNext s

/-! ### PROG-START and PROG-STOP -/

/-- A slot may be started in this state (R141, check 2). -/
def SlotState.startable : SlotState → Bool
  | .loaded | .done | .faulted | .stopped => true
  | .empty | .waiting | .running => false

/-- What every executed PROG-START sets (R141). -/
def freshRun (x : ProgSlot) : ProgSlot :=
  { x with loopsLeft := x.loops, faultsSeen := false, dips := 0, results := x.steps.map fun _ => .notRun }

/-- A run begins (R141): at once, or with a wait for the minute of START. -/
def startRun (i : SlotId) (s : State) : State :=
  match (s.slot i).start with
  | none => beginPass i s.clock.minute (s.modifySlot i freshRun)
  | some m => s.modifySlot i fun x => { freshRun x with state := .waiting, waitMinute := some m }

/-- PROG-START (R141). -/
def progStart (p : List Byte) (s : State) : Answer × State :=
  match slotOf (readByte p 0) with
  | none => (.refuse .range, s)
  | some i =>
    if (s.slot i).state.startable = false then (.refuse .state, s)
    else if (s.slot i).start.isSome ∧ s.clock.isSet = false then (.refuse .clockUnset, s)
    else (⟨.done, []⟩, startRun i s)

/-- PROG_START. -/
def execProgStart (s : State) : Host.Outcome State Fault Refusal :=
  request .progStart progStart s

/-- The slot of a stopped run (R143): the current step index and the results are kept. -/
def stoppedSlot (x : ProgSlot) : ProgSlot :=
  { x with state := .stopped, phase := .none, reach := none, hold := none, gap := none, waitMinute := none }

/-- A run is stopped (R143): the claim or queue entry goes, the slot stops, and a released claim passes on. -/
def stopRun (i : SlotId) (s : State) : State :=
  let r := releaseStep i s
  runDuty r.2 (r.1.modifySlot i stoppedSlot)

/-- PROG-STOP (R143). -/
def progStop (p : List Byte) (s : State) : Answer × State :=
  match slotOf (readByte p 0) with
  | none => (.refuse .range, s)
  | some i =>
    if (s.slot i).state = .waiting ∨ (s.slot i).state = .running then (⟨.done, []⟩, stopRun i s)
    else (.refuse .state, s)

/-- PROG_STOP. -/
def execProgStop (s : State) : Host.Outcome State Fault Refusal :=
  request .progStop progStop s

/-! ### Timers -/

/-- REACH_TIMER_EXPIRY (R150). -/
def reachTimerExpiry (i : SlotId) (s : State) : State :=
  if timerDue (s.slot i).reach then runDuty [.fail i .timeout] s else s

/-- REACH_TIMER_EXPIRY as a command. -/
def execReachTimerExpiry (i : SlotId) (s : State) : Host.Outcome State Fault Refusal :=
  running (reachTimerExpiry i) s

/-- HOLD_TIMER_EXPIRY (R149). -/
def holdTimerExpiry (i : SlotId) (s : State) : State :=
  if timerDue (s.slot i).hold then runDuty [.pass i] s else s

/-- HOLD_TIMER_EXPIRY as a command. -/
def execHoldTimerExpiry (i : SlotId) (s : State) : Host.Outcome State Fault Refusal :=
  running (holdTimerExpiry i) s

/-- GAP_TIMER_EXPIRY_PROG (R154). -/
def gapTimerExpiryProg (i : SlotId) (s : State) : State :=
  if timerDue (s.slot i).gap then beginPass i s.clock.minute s else s

/-- GAP_TIMER_EXPIRY_PROG as a command. -/
def execGapTimerExpiryProg (i : SlotId) (s : State) : Host.Outcome State Fault Refusal :=
  running (gapTimerExpiryProg i) s

/-! ### READ-PROG -/

/-- The code of a slot STATE (11.5). -/
def SlotState.code : SlotState → Byte
  | .empty => 0
  | .loaded => 1
  | .waiting => 2
  | .running => 3
  | .done => 4
  | .faulted => 5
  | .stopped => 6

/-- The code of a phase (11.5). -/
def Phase.code : Phase → Byte
  | .none => 0
  | .claiming => 1
  | .reaching => 2
  | .holding => 3

/-- The code of a step result (11.5). -/
def StepResult.code : StepResult → Byte
  | .notRun => 0
  | .passed => 1
  | .failed .timeout => 2
  | .failed .unstable => 3
  | .failed .barred => 4
  | .failed .handoff => 5
  | .failed .travel => 6
  | .failed .sensor => 7
  | .failed .noOutlet => 8
  | .failed .feeder => 9

/-- The claim position of a slot's step in progress: 0 HOLDER, 1 to 3 waiter position, 0xFF with no step in progress. -/
def claimPosition (i : SlotId) (s : State) : Byte :=
  match (s.slot i).currentStep with
  | none => 0xFF
  | some st =>
    let cl := s.claim st.channel
    if cl.holder.any (fun h => h.slot == i) then 0 else byte (cl.waiters.takeWhile (· ≠ i)).length + 1

/-- The settings and LOOP_START part of READ-PROG, offsets 3 to 12; zero bytes while EMPTY (11.5, "Absent item"). -/
def settingsPart (x : ProgSlot) : List Byte :=
  match x.state with
  | .empty => List.replicate 10 0
  | .loaded | .waiting | .running | .done | .faulted | .stopped =>
    [byte x.steps.length, byte x.loops] ++ be16Opt x.start ++ be16 x.intervalMin
      ++ [flagByte x.continueOnFault, byte x.loopsLeft] ++ be16 x.loopStart

/-- The step part of READ-PROG, offsets 15 to 22. Claim position and timers have their own fillers, and the dip count is a
zero byte, with no step in progress. -/
def stepPart (i : SlotId) (s : State) : List Byte :=
  let x := s.slot i
  match x.phase with
  | .none => [byte x.curStep, 0, 0xFF, 0xFF, 0xFF, 0xFF, 0xFF, 0]
  | .claiming | .reaching | .holding =>
    [byte x.curStep, x.phase.code, claimPosition i s] ++ be16Opt x.reach ++ be16Opt x.hold ++ [byte x.dips]

/-- READ-PROG data: 24 + STEP_COUNT bytes (11.5). -/
def progBytes (i : SlotId) (s : State) : List Byte :=
  let x := s.slot i
  [byte i.val, x.state.code, byte s.freeSteps] ++ settingsPart x ++ be16Opt x.waitMinute ++ stepPart i s
    ++ [flagByte x.faultsSeen] ++ x.results.map StepResult.code

/-- READ-PROG (R156). -/
def readProg (p : List Byte) (s : State) : Answer × State :=
  match slotOf (readByte p 0) with
  | none => (.refuse .range, s)
  | some i => (⟨.done, progBytes i s⟩, s)

/-- READ_PROG. -/
def execReadProg (s : State) : Host.Outcome State Fault Refusal :=
  request .readProg readProg s

end Sys2Proof.Machine
end

