-- ==== Sys2Proof/Machine/Addressing.lean ====
section
/-! DEFINITION. The requests of the Branch Address Translator: RANGE-SET (R171, R172) and MAP-SET (R173). -/

namespace Sys2Proof.Machine

/-! ### RANGE-SET -/

/-- The sizes a range may have (10.2): the powers of two from 1 to 256. -/
def rangeSizes : List Nat :=
  [1, 2, 4, 8, 16, 32, 64, 128, 256]

/-- A range index. -/
def rangeIndexOf (n : Nat) : Option (Fin 4) :=
  if h : n < 4 then some ⟨n, h⟩ else none

/-- The covered addresses of two ranges share an address (R171, check 5). -/
def BranchRange.meets (r q : BranchRange) : Bool :=
  decide (r.base < q.base + q.size) && decide (q.base < r.base + r.size)

/-- The first other enabled range, in ascending index, with which a record for index `i` would overlap (R171). -/
def overlapWith (x : Translator) (i : Fin 4) (r : BranchRange) : Option (Fin 4) :=
  if r.enable then
    (indices 4).find? fun j => decide (j ≠ i) && (x.ranges.get j).enable && r.meets (x.ranges.get j)
  else none

/-- The record a RANGE-SET carries, with the codes already read (11.5). -/
def readRange (p : List Byte) (enable mapped : Bool) : BranchRange :=
  { enable, base := readWord p 2, size := readWord p 4, mapped, chanBase := readByte p 7, mapBase := readByte p 8 }

/-- Checks 2 to 4 of R171. -/
def BranchRange.wellFormed (r : BranchRange) : Bool :=
  rangeSizes.contains r.size && decide (r.base < 32768) && decide (r.base % r.size = 0) && decide (r.chanBase < 48)
    && decide (r.mapBase < 128)

/-- RANGE-SET with its codes read: checks 2 to 5 and the store (R171, R172). -/
def writeRange (i : Fin 4) (r : BranchRange) (s : State) : Answer × State :=
  if r.wellFormed then
    match overlapWith s.xlat i r with
    | some j => (⟨.overlap, [byte j.val]⟩, s)
    | none => (⟨.done, []⟩, { s with xlat := { s.xlat with ranges := s.xlat.ranges.set i r } })
  else (.refuse .range, s)

/-- RANGE-SET (R171). MODE 0 is DIRECT and 1 is MAPPED. -/
def rangeSet (p : List Byte) (s : State) : Answer × State :=
  match rangeIndexOf (readByte p 0), flagOf (readByte p 1), flagOf (readByte p 6) with
  | some i, some en, some mapped => writeRange i (readRange p en mapped) s
  | _, _, _ => (.refuse .range, s)

/-- RANGE_SET. -/
def execRangeSet (s : State) : Host.Outcome State Fault Refusal :=
  request .rangeSet rangeSet s

/-! ### MAP-SET -/

/-- The entries a MAP-SET carries: VALID code and CHANNEL (11.5). -/
def readEntries (p : List Byte) : List (Nat × Nat) :=
  (List.range ((p.length - 1) / 2)).map fun k => (readByte p (1 + 2 * k), readByte p (2 + 2 * k))

/-- The position, counting from `k`, of the first entry that fails a check (R173). -/
def firstFailing (check : Nat × Nat → Bool) (k : Nat) (es : List (Nat × Nat)) : Option Nat :=
  match es with
  | [] => none
  | e :: rest => if check e then firstFailing check (k + 1) rest else some k

/-- The position MAP-SET's refusal carries, if checks 2 and 3 of R173 refuse the list. -/
def entriesFailure (es : List (Nat × Nat)) : Option Nat :=
  match firstFailing (fun e => (flagOf e.1).isSome) 1 es with
  | some k => some k
  | none => firstFailing (fun e => e.1 == 0 || decide (e.2 < 48)) 1 es

/-- The entry stored: CHANNEL 0 with VALID NO (R173). -/
def entryOf (e : Nat × Nat) : MapEntry :=
  if e.1 = 1 then { valid := true, channel := (channelOf e.2).getD 0 } else { valid := false, channel := 0 }

/-- The entries written to the map from an index on (R173). -/
def writeEntries (k : Nat) (es : List (Nat × Nat)) (m : Table MapEntry 128) : Table MapEntry 128 :=
  match es with
  | [] => m
  | e :: rest => writeEntries (k + 1) rest (if h : k < 128 then m.set ⟨k, h⟩ (entryOf e) else m)

/-- An entry as MAP-SET carries it (11.5). -/
def entryBytes (e : MapEntry) : List Byte :=
  [flagByte e.valid, byte e.channel.val]

/-- The map from an index for 16 entries, or up to index 127 (R173). -/
def mapBytes (start : Nat) (m : Table MapEntry 128) : List Byte :=
  ((m.toList.drop start).take 16).flatMap entryBytes

/-- MAP-SET (R173). -/
def mapSet (p : List Byte) (s : State) : Answer × State :=
  let start := readByte p 0
  let es := readEntries p
  if Config.mapSize ≤ start ∨ Config.mapSize < start + es.length then (⟨.range, [0]⟩, s)
  else
    match entriesFailure es with
    | some k => (⟨.range, [byte k]⟩, s)
    | none =>
      let m := writeEntries start es s.xlat.map
      (⟨.done, mapBytes start m⟩, { s with xlat := { s.xlat with map := m } })

/-- MAP_SET. -/
def execMapSet (s : State) : Host.Outcome State Fault Refusal :=
  request .mapSet mapSet s

end Sys2Proof.Machine
end

