-- ==== Sys2Proof/Machine/Link.lean ====
section
/-! DEFINITION. The Link Interface: the receiver (R178), the request queue (R179), the transmit order (R182), BAD_KIND,
the notice requests (R185, R186), READ-STATUS (R187), and the two resets (R188, R189). -/

namespace Sys2Proof.Machine

/-! ### The receiver -/

/-- What the bytes taken after a START come to (R178). -/
inductive Parsed where
  /-- The frame is not complete. -/
  | more
  /-- The frame is discarded: LEN out of 2 to 120, or a CRC mismatch. -/
  | discard
  /-- A good frame, and the bytes behind it. -/
  | good (f : Frame) (rest : List Byte)
deriving DecidableEq, Repr

/-- The frame of KIND, TAG and payload bytes. -/
def frameOf (body : List Byte) : Frame :=
  { kind := body.getD 0 0, tag := body.getD 1 0, payload := body.drop 2 }

/-- The bytes taken after a START judged (R178): LEN as soon as it is there, the CRC when its second byte is there. -/
def parseFrame (bs : List Byte) : Parsed :=
  match bs with
  | [] => .more
  | len :: tail =>
    let n := len.toNat
    if n < 2 ∨ 120 < n then .discard
    else if tail.length < n + 2 then .more
    else if be16 (crc16 (len :: tail.take n)).toNat = (tail.drop n).take 2 then
      .good (frameOf (tail.take n)) (tail.drop (n + 2))
    else .discard

/-- A good frame is handed to the request queue (R179): it joins the tail, or is answered QUEUE_FULL, or is dropped. -/
def handFrame (f : Frame) (s : State) : State :=
  if s.link.queue.length < Config.queueLimit then
    { s with link := { s.link with queue := s.link.queue ++ [f] } }
  else if s.link.tx.length < Config.queueFullLimit then makeReady (replyTo f (.refuse .queueFull)) s
  else s

/-- What the receiver has found in a run of bytes: the good frames in order, and its condition behind them (none = HUNTING,
some = RECEIVING with the bytes taken after the START). -/
structure Scan where
  frames : List Frame
  buf : Option (List Byte)
deriving DecidableEq, Repr

/-- A good frame found in front of what follows. -/
def Scan.cons (f : Frame) (x : Scan) : Scan :=
  { x with frames := f :: x.frames }

/-- The receiver HUNTING at the head of a run of bytes (R178). Bytes other than a START are passed over; behind a START the
frame is judged; after a discard the bytes behind that START are examined again; after a good frame the bytes behind the
frame. At most `n` bytes and STARTs are examined. -/
def scan : Nat → List Byte → Scan
  | 0, _ => { frames := [], buf := none }
  | _ + 1, [] => { frames := [], buf := none }
  | n + 1, b :: bs =>
    if b = Config.startByte then
      match parseFrame bs with
      | .more => { frames := [], buf := some bs }
      | .discard => scan n bs
      | .good f rest => (scan n rest).cons f
    else scan n bs

/-- A run of bytes examined from HUNTING: each round of the scan takes at least one byte. -/
def scanAll (bs : List Byte) : Scan :=
  scan (bs.length + 1) bs

/-- The gap timer behind the last byte taken: it runs while a frame is being received, and is due at the first tick of the
millisecond timebase at which more than 20 ms have passed (R178, log 6). -/
def gapTimerFor (buf : Option (List Byte)) : Timer :=
  if buf.isSome then some (Config.gapMs + 1) else none

/-- The receiver takes a run of bytes in HUNTING, and hands on the good frames in order. -/
def receive (bs : List Byte) (s : State) : State :=
  let x := scanAll bs
  let s₁ : State := { s with link := { s.link with rxBuf := x.buf, rxGap := gapTimerFor x.buf } }
  x.frames.foldl (fun s f => handFrame f s) s₁

/-- Bytes arrive (R178). A frame being received is taken up again from its START, which comes to the same as going on with
it byte by byte (log 5). -/
def frameArrival (bytes : List Byte) (s : State) : State :=
  if bytes.isEmpty then s
  else
    match s.link.rxBuf with
    | none => receive bytes s
    | some taken => receive (Config.startByte :: (taken ++ bytes)) s

/-- FRAME_ARRIVAL. -/
def execFrameArrival (bytes : List Byte) (s : State) : Host.Outcome State Fault Refusal :=
  running (frameArrival bytes) s

/-- GAP_TIMER_EXPIRY (R178): the frame is discarded, and the bytes taken after its START are examined again. -/
def gapTimerExpiry (s : State) : State :=
  match s.link.rxBuf with
  | none => s
  | some taken => if timerDue s.link.rxGap then receive taken s else s

/-- GAP_TIMER_EXPIRY as a command. -/
def execGapTimerExpiry (s : State) : Host.Outcome State Fault Refusal :=
  running gapTimerExpiry s

/-! ### BAD_KIND and the transmitter -/

/-- A KIND that names no request (R180, step 1). -/
def badKind (_ : List Byte) (s : State) : Answer × State :=
  (.refuse .badKind, s)

/-- BAD_KIND. -/
def execBadKind (s : State) : Host.Outcome State Fault Refusal :=
  request .badKind badKind s

/-- FRAME_SENT (R182): the oldest frame of the transmit order has been sent and is removed. After the DONE reply of a RESET
the part is reset (R188). With no frame ready nothing is sent. -/
def frameSent (s : State) : State :=
  match s.link.tx with
  | [] => s
  | _ :: rest => if s.link.resetDue then resetPart s else { s with link := { s.link with tx := rest } }

/-- FRAME_SENT as a command. -/
def execFrameSent (s : State) : Host.Outcome State Fault Refusal :=
  running frameSent s

/-! ### Notice requests -/

/-- The pending set and the mask, as the notice replies carry them (11.5). -/
def noticeBytes (s : State) : List Byte :=
  [s.link.notices, s.link.mask]

/-- NOTICE-ACK (R185). -/
def noticeAck (p : List Byte) (s : State) : Answer × State :=
  let s₁ : State := { s with link := { s.link with notices := s.link.notices &&& ~~~(p.getD 0 0) } }
  (⟨.done, noticeBytes s₁⟩, s₁)

/-- NOTICE_ACK. -/
def execNoticeAck (s : State) : Host.Outcome State Fault Refusal :=
  request .noticeAck noticeAck s

/-- NOTICE-MASK (R186): the whole mask is stored, and kinds pending that come out of the mask make one NOTICE frame. -/
def noticeMask (p : List Byte) (s : State) : Answer × State :=
  let new := p.getD 0 0
  let cause := s.link.mask &&& ~~~new &&& s.link.notices
  let s₁ : State := { s with link := { s.link with mask := new } }
  let s₂ := if cause = 0 then s₁ else makeReady (noticeFrame s₁.link.notices new cause) s₁
  (⟨.done, noticeBytes s₂⟩, s₂)

/-- NOTICE_MASK. -/
def execNoticeMask (s : State) : Host.Outcome State Fault Refusal :=
  request .noticeMask noticeMask s

/-! ### READ-STATUS -/

/-- The code of the speed (R187). -/
def LinkSpeed.code : LinkSpeed → Byte
  | .b19200 => 0
  | .b57600 => 1
  | .b115200 => 2
  | .b230400 => 3

/-- The code of a LAST_FAULT (R187). -/
def faultCode (k : Option FaultKind) : Byte :=
  match k with
  | none => 0
  | some .noClosedLimit => 1
  | some .noOpenLimit => 2
  | some .stuck => 3
  | some .bothLimits => 4

/-- HANDED_OFF, one bit per bank, bank 0 least significant (R187). DESIGN CHOICE (log 27), unsafe: the two bits left over, 6 and
7, to which the spec gives no value, are 0. -/
def handedOffByte (s : State) : Byte :=
  byte (((indices 6).map fun b => if s.handoff.handedOff.get b then 2 ^ b.val else 0).sum)

/-- LAST_FAULT of a channel; an absent record has NONE (R126). -/
def lastFaultByte (s : State) (c : Channel) : Byte :=
  match s.outlet c with
  | some o => faultCode o.lastFault
  | none => 0

/-- A range as RANGE-SET carries it, with its index: 9 bytes (R187). -/
def rangeBytes (s : State) (i : Fin 4) : List Byte :=
  let r := s.xlat.ranges.get i
  [byte i.val, flagByte r.enable] ++ be16 r.base ++ be16 r.size ++ [flagByte r.mapped, byte r.chanBase, byte r.mapBase]

/-- READ-STATUS data: 88 bytes (R187). -/
def statusBytes (s : State) : List Byte :=
  noticeBytes s ++ [s.link.speed.code, handedOffByte s] ++ (indices 48).map (lastFaultByte s)
    ++ (indices 4).flatMap (rangeBytes s)

/-- READ-STATUS (R187). -/
def readStatus (_ : List Byte) (s : State) : Answer × State :=
  (⟨.done, statusBytes s⟩, s)

/-- READ_STATUS. -/
def execReadStatus (s : State) : Host.Outcome State Fault Refusal :=
  request .readStatus readStatus s

/-! ### Resets -/

/-- The RESET request (R188): its DONE reply becomes ready, and the reset follows when that reply has been sent. -/
def resetRequest (_ : List Byte) (s : State) : Answer × State :=
  (⟨.done, []⟩, { s with link := { s.link with resetDue := true } })

/-- RESET. -/
def execReset (s : State) : Host.Outcome State Fault Refusal :=
  request .reset resetRequest s

/-- RSTN_ASSERTED (R189): RSTn is low; the output lines follow (Machine/Flags.lean). -/
def execRstnAsserted (s : State) : Host.Outcome State Fault Refusal :=
  .next { s with rstLow := true }

/-- The speed the straps give (R176); true = high. -/
def strapSpeed (spd1 spd0 : Bool) : LinkSpeed :=
  match spd1, spd0 with
  | false, false => .b19200
  | false, true => .b57600
  | true, false => .b115200
  | true, true => .b230400

/-- Hardware reset ends (R189): straps sampled, one-second timebase afresh, every block at its reset values. -/
def hardwareReset (spd1 spd0 : Bool) (s : State) : State :=
  afterReset (strapSpeed spd1 spd0) s.handoff.bho s.drive.olim s.drive.clim 0 s.pending

/-- HARDWARE_RESET. -/
def execHardwareReset (spd1 spd0 : Bool) (s : State) : Host.Outcome State Fault Refusal :=
  .next (hardwareReset spd1 spd0 s)

end Sys2Proof.Machine
end

