-- ==== Sys2Proof/Machine/Dispatch.lean ====
section
/-! DEFINITION. The meaning of each command, one arm per constructor. -/

namespace Sys2Proof.Machine

def exec (i : Instr) (s : State) : Host.Outcome State Fault Refusal :=
  match i with
  | .frameArrival bytes => Sys2Proof.Machine.execFrameArrival bytes s
  | .gapTimerExpiry => Sys2Proof.Machine.execGapTimerExpiry s
  | .badKind => Sys2Proof.Machine.execBadKind s
  | .frameSent => Sys2Proof.Machine.execFrameSent s
  | .rstnAsserted => Sys2Proof.Machine.execRstnAsserted s
  | .hardwareReset spd1 spd0 => Sys2Proof.Machine.execHardwareReset spd1 spd0 s
  | .outletSet => Sys2Proof.Machine.execOutletSet s
  | .outletDrop => Sys2Proof.Machine.execOutletDrop s
  | .profileSet => Sys2Proof.Machine.execProfileSet s
  | .barSet => Sys2Proof.Machine.execBarSet s
  | .demand => Sys2Proof.Machine.execDemand s
  | .rehome => Sys2Proof.Machine.execRehome s
  | .faultClear => Sys2Proof.Machine.execFaultClear s
  | .poolSet => Sys2Proof.Machine.execPoolSet s
  | .profileSwap => Sys2Proof.Machine.execProfileSwap s
  | .supply => Sys2Proof.Machine.execSupply s
  | .rebalance => Sys2Proof.Machine.execRebalance s
  | .rangeSet => Sys2Proof.Machine.execRangeSet s
  | .mapSet => Sys2Proof.Machine.execMapSet s
  | .progLoadFirst => Sys2Proof.Machine.execProgLoadFirst s
  | .progLoadNext => Sys2Proof.Machine.execProgLoadNext s
  | .progStart => Sys2Proof.Machine.execProgStart s
  | .progStop => Sys2Proof.Machine.execProgStop s
  | .clockSet => Sys2Proof.Machine.execClockSet s
  | .readOutlet => Sys2Proof.Machine.execReadOutlet s
  | .readPool => Sys2Proof.Machine.execReadPool s
  | .readProg => Sys2Proof.Machine.execReadProg s
  | .readSensors => Sys2Proof.Machine.execReadSensors s
  | .readLog => Sys2Proof.Machine.execReadLog s
  | .readStatus => Sys2Proof.Machine.execReadStatus s
  | .noticeAck => Sys2Proof.Machine.execNoticeAck s
  | .noticeMask => Sys2Proof.Machine.execNoticeMask s
  | .reset => Sys2Proof.Machine.execReset s
  | .roundTimerExpiry p => Sys2Proof.Machine.execRoundTimerExpiry p s
  | .capacityStalenessExpiry => Sys2Proof.Machine.execCapacityStalenessExpiry s
  | .stalenessTimerExpiry c => Sys2Proof.Machine.execStalenessTimerExpiry c s
  | .warmTimerExpiry c => Sys2Proof.Machine.execWarmTimerExpiry c s
  | .sampleEvent input reading => Sys2Proof.Machine.execSampleEvent input reading s
  | .clockTick => Sys2Proof.Machine.execClockTick s
  | .moveTimerExpiry c => Sys2Proof.Machine.execMoveTimerExpiry c s
  | .checkTimerExpiry c => Sys2Proof.Machine.execCheckTimerExpiry c s
  | .pauseTimerExpiry c => Sys2Proof.Machine.execPauseTimerExpiry c s
  | .limitEvent c line active => Sys2Proof.Machine.execLimitEvent c line active s
  | .bhoAssertion b => Sys2Proof.Machine.execBhoAssertion b s
  | .bhoRelease b => Sys2Proof.Machine.execBhoRelease b s
  | .reachTimerExpiry slot => Sys2Proof.Machine.execReachTimerExpiry slot s
  | .holdTimerExpiry slot => Sys2Proof.Machine.execHoldTimerExpiry slot s
  | .gapTimerExpiryProg slot => Sys2Proof.Machine.execGapTimerExpiryProg slot s

end Sys2Proof.Machine
end

