-- ==== Sys2Proof/Machine/Step.lean ====
section
/-! DEFINITION. One step of the part: the command at the front of the queue, or a tick of the millisecond timebase while no
command waits. -/

namespace Sys2Proof.Machine

/-- What the part does while no command waits (DESIGN CHOICE, log 4): one tick of the millisecond timebase, up to the last
tick before the one that coincides with CLOCK_TICK (R103); nothing there, and nothing while RSTn is low. -/
def idle (s : State) : State :=
  if s.rstLow = false ∧ s.msPhase + 1 < Config.msPerSecond then { advanceMs 1 s with msPhase := s.msPhase + 1 } else s

/-- One step. -/
def step (s : State) : Host.Outcome State Fault Refusal :=
  match s.pending with
  | [] => .next (idle s)
  | c :: rest => exec c { s with pending := rest }

/-- The state with the command that a word spells put at the front of its queue; no word spells one. -/
def State.withFetchWord (s : State) (nbits w : Nat) : State :=
  match decodeTableWord nbits w with
  | some c => { s with pending := c :: s.pending }
  | none => s

end Sys2Proof.Machine
end

