-- ==== Sys2Proof/Safety.lean ====
section
/-! DEFINITION. The terms the statements use: a request at the head of the queue, the values a reset leaves, what a step of a
duty program and its claim come to within an event, move needs, and the invariants that the part's rules promise, each of which
holds right after reset and is kept by every step. -/

namespace Sys2Proof.Machine

/-! ### A request taken for execution -/

/-- The part runs and takes the frame `f` for execution: it heads the queue, `rest` waits behind it, and the transmit order
is empty (R180). -/
def State.takes (s : State) (f : Frame) (rest : List Frame) : Prop :=
  s.rstLow = false ∧ s.link.tx = [] ∧ s.link.queue = f :: rest

/-- The state while the head frame executes: the frame has left the queue (R179). -/
def State.dequeue (s : State) (rest : List Frame) : State :=
  { s with link := { s.link with queue := rest } }

/-- The state after an execution: the reply to `f` is ready (R180, R181). -/
def State.answered (s : State) (f : Frame) (a : Answer) : State :=
  makeReady (replyTo f a) s

/-- The head frame is refused with a status and no data, and nothing else happens. -/
def State.refused (s : State) (f : Frame) (rest : List Frame) (st : Status) : State :=
  (s.dequeue rest).answered f (.refuse st)

/-! ### Reset values -/

/-- The values that the chapters give for hardware reset and for the RESET request (R25, R46, R84, R94, R118, R135, R157, R166,
R175, R188, R189). -/
structure State.atReset (t : State) : Prop where
  link : t.link.queue = [] ∧ t.link.tx = [] ∧ t.link.rxBuf = none ∧ t.link.rxGap = none ∧ t.link.resetDue = false ∧
    t.link.notices = 0 ∧ t.link.mask = 0
  ranges : ∀ i : Fin 4, t.xlat.ranges.get i =
    { enable := false, base := 0, size := 1, mapped := false, chanBase := 0, mapBase := 0 }
  map : ∀ i : Fin 128, t.xlat.map.get i = { valid := false, channel := 0 }
  outlets : ∀ c : Channel, t.outlet c = none ∧ t.demand c = .absent ∧ t.curtailment c = { counter := 0, floorCut := false } ∧
    t.claim c = { holder := none, waiters := [] }
  positions : ∀ c : Channel, t.position c =
    { est := 0, known := false, target := none, move := none, homeReq := false, travel := 0, drift := false, pause := none }
  motion : t.drive.closing = [] ∧ t.drive.opening = []
  pools : ∀ p : Pool,
    (t.pool p).settings = { enable := false, periodS := 10, reservePct := 0, demandStaleS := 300, deadband := 20 } ∧
    (t.pool p).activeBank = .a ∧ (t.pool p).swapPending = false ∧ (t.pool p).roundTimer = none ∧
    (t.pool p).figures = { b := 0, a := 0, k := if p = .steam then 0 else 1000, h := 0, c := 0 } ∧
    (t.pool p).totals = { sumE := 0, sumGrant := 0, eligibleCount := 0, curtailedCount := 0 } ∧ (t.pool p).roundCount = 0
  steam : t.pools.steamPart =
    { settings := { capStaleS := 120, capFallbackPct := 50, pLow := 700, pTrip := 500, pFaultFactor := 500 },
      cd := 0, capTimer := none, capStale := false }
  hot : ∀ h : HwPool, t.hwPart h = { feeder := none, coilYieldPct := 85, storeKw := 0, storeTemp := 550 }
  log : t.log = { entries := [], lost := false }
  banks : ∀ b : BankId, t.handoff.handedOff.get b = t.handoff.bho.get b
  slots : ∀ i : SlotId, (t.slot i).state = .empty ∧ (t.slot i).steps = [] ∧ (t.slot i).loopsLeft = 0 ∧
    (t.slot i).dips = 0 ∧ (t.slot i).curStep = 0 ∧ (t.slot i).phase = .none ∧ (t.slot i).waitMinute = none ∧
    (t.slot i).loopStart = 0 ∧ (t.slot i).reach = none ∧ (t.slot i).hold = none ∧ (t.slot i).gap = none ∧
    (t.slot i).faultsSeen = false
  sensors : ∀ i : InputId, t.sensor i = { lastGood := 0, faulted := false, badRun := 0, goodRun := 0 }
  clock : t.clock = { minute := 0, second := 0, isSet := false }

/-! ### Link -/

/-- The notice kinds in the bit order of 11.5. -/
def noticeKinds : List NoticeKind :=
  [.curtail, .logLoss, .program, .travel, .handoff, .sensor, .profile, .stale]

/-- How many kinds are not pending: each can still make one NOTICE frame ready before an acknowledgement (R182, R183). -/
def State.notPending (s : State) : Nat :=
  (noticeKinds.filter fun k => !s.isPending k).length

/-- The request queue holds at most 4 frames (R179); the transmit order, counted with the NOTICE frames that raises can
still add to it, stays within its 16 (R182). -/
def State.linkBounded (s : State) : Prop :=
  s.link.queue.length ≤ Config.queueLimit ∧ s.link.tx.length + s.notPending ≤ Config.transmitLimit

/-! ### Translator, log, sensors, clock -/

/-- Every range holds a valid geometry, and two enabled ranges share no address (R168, R171). -/
def State.rangesApart (s : State) : Prop :=
  (∀ i : Fin 4, (s.xlat.ranges.get i).wellFormed = true) ∧
  ∀ i j : Fin 4, i ≠ j → (s.xlat.ranges.get i).enable = true → (s.xlat.ranges.get j).enable = true →
    ∀ a : Nat, ¬((s.xlat.ranges.get i).hits a = true ∧ (s.xlat.ranges.get j).hits a = true)

/-- The log holds at most 32 entries (R89). -/
def State.logBounded (s : State) : Prop :=
  s.log.entries.length ≤ Config.logLimit

/-- An input record within the ranges of 9.1; FAULTED needs the run counts that R160 gives it. -/
def Sensor.inRange (i : InputId) (x : Sensor) : Prop :=
  readingValid i x.lastGood = true ∧ x.badRun ≤ 2 ∧ x.goodRun ≤ 3 ∧ (x.badRun = 0 ∨ x.goodRun = 0) ∧
  (x.faulted = false → x.badRun < 2) ∧ (x.faulted = true → x.goodRun < 3)

/-- Every input record is within its ranges, and so is the clock (R160, R164). -/
def State.scannerInRange (s : State) : Prop :=
  (∀ i : InputId, (s.sensor i).inRange i) ∧ s.clock.minute < Config.weekMinutes ∧ s.clock.second < 60

/-! ### Duty programs -/

/-- The step store: at most 64 steps in all and 32 in a slot, with one result for each step (R136, R139). -/
def State.storeBounded (s : State) : Prop :=
  s.stepsStored ≤ Config.storeSteps ∧
  ∀ i : SlotId, (s.slot i).steps.length ≤ Config.slotSteps ∧ (s.slot i).results.length = (s.slot i).steps.length

/-- The frames waiting in either direction have a LEN of 2 to 120 (R177). -/
def State.framesFit (s : State) : Prop :=
  (∀ f ∈ s.link.queue, f.wellFormed = true) ∧ ∀ f ∈ s.link.tx, f.wellFormed = true

/-- A step in progress, and its reach and hold timers, are those of a RUNNING slot, and the gap timer runs only in a RUNNING slot
with no step in progress (8.1, R154). -/
def ProgSlot.timersRight (x : ProgSlot) : Prop :=
  (x.phase ≠ .none → x.state = .running ∧ x.gap = none) ∧ ((x.reach ≠ none ∨ x.hold ≠ none) → x.phase ≠ .none) ∧
  (x.gap ≠ none → x.state = .running)

/-- Slot `i` has a step in progress, and it is on outlet `c`. -/
def State.stepOn (s : State) (c : Channel) (i : SlotId) : Prop :=
  (s.slot i).phase ≠ .none ∧ (s.slot i).currentStep.map (fun st => st.channel) = some c

/-- No claim queue holds a slot twice or holds the slot that holds the claim, and each of these slots has its step on that outlet
in progress (R144 to R146). -/
def State.claimsRight (s : State) : Prop :=
  (∀ i : SlotId, (s.slot i).timersRight) ∧
  ∀ c : Channel, (s.claim c).waiters.Nodup ∧ (∀ i ∈ (s.claim c).waiters, s.stepOn c i) ∧
    ∀ h ∈ (s.claim c).holder, h.slot ∉ (s.claim c).waiters ∧ s.stepOn c h.slot

/-- The `n` steps of a PROG-LOAD payload from an offset, 9 bytes each (11.5), come to these steps: addresses translated, classes
named and the other fields clamped (R138 to R140). -/
def carriesSteps (x : Translator) (p : List Byte) (off n : Nat) (steps : List Step) : Prop :=
  steps.length = n ∧ ∀ k : Nat, k < n → ∃ (c : Channel) (cls : ServiceClass),
    translate x (readWord p (off + 9 * k)) = .ok c ∧ classOf (readByte p (off + 9 * k + 4)) = some cls ∧
    steps[k]? = some
      { channel := c, kw := max 1 (min 2000 (readWord p (off + 9 * k + 2))), cls,
        targetTemp := max (-200) (min 2000 (readInt p (off + 9 * k + 5))),
        reachMin := max 1 (min 240 (readByte p (off + 9 * k + 7))), holdMin := min (readByte p (off + 9 * k + 8)) 240 }

/-- No field of the `n` steps calls for a clamp (R140). -/
def stepsInRange (p : List Byte) (off n : Nat) : Prop :=
  ∀ k : Nat, k < n → 1 ≤ readWord p (off + 9 * k + 2) ∧ readWord p (off + 9 * k + 2) ≤ 2000 ∧
    -200 ≤ readInt p (off + 9 * k + 5) ∧ readInt p (off + 9 * k + 5) ≤ 2000 ∧
    1 ≤ readByte p (off + 9 * k + 7) ∧ readByte p (off + 9 * k + 7) ≤ 240 ∧ readByte p (off + 9 * k + 8) ≤ 240

/-- The first of the `n` steps that a PROG-LOAD is refused for: one with a bad CLASS, or, with every class good, one whose
address does not translate (R138 checks 4 and 5). -/
def firstBadStep (x : Translator) (p : List Byte) (off n k : Nat) (st : Status) : Prop :=
  k < n ∧
  ((st = .range ∧ 4 ≤ readByte p (off + 9 * k + 4) ∧ ∀ j : Nat, j < k → readByte p (off + 9 * j + 4) < 4) ∨
   ((∀ j : Nat, j < n → readByte p (off + 9 * j + 4) < 4) ∧ translate x (readWord p (off + 9 * k)) = .error st ∧
     ∀ j : Nat, j < k → ∃ c : Channel, translate x (readWord p (off + 9 * j)) = .ok c))

/-! ### Steps of the duty programs within one event (R144 to R154) -/

/-- The slot after its step `st` of index `idx` has begun (R145, 1). -/
def ProgSlot.begun (x : ProgSlot) (idx : Nat) (st : Step) : ProgSlot :=
  { x with curStep := idx, phase := .claiming, dips := 0, reach := some (st.reachMin * 60), hold := none }

/-- The slot after its current step has come to a result: timers stopped, phase NONE (R149, R153). -/
def ProgSlot.resulted (x : ProgSlot) (r : StepResult) : ProgSlot :=
  { x with results := x.results.set (x.curStep - 1) r, reach := none, hold := none, phase := .none }

/-- The slot after its current step has failed, before it goes on or its run ends (R153, 2). -/
def ProgSlot.failed (x : ProgSlot) (why : FailReason) : ProgSlot :=
  { x.resulted (.failed why) with faultsSeen := true }

/-- The run of slot `i` ends in FAULTED with its current step failed (R153, 2 and 4). -/
def State.runFaulted (s : State) (i : SlotId) (why : FailReason) : State :=
  raise .program (s.setSlot i { (s.slot i).failed why with state := .faulted })

/-- The step `st` of slot `j` takes the claim of outlet `c`, with `rest` waiting behind it, and stays there: REACHING where it
needs a temperature, HOLDING where it needs none and holds for a time (R146). -/
def State.takesClaim (s t : State) (c : Channel) (j : SlotId) (st : Step) (rest : List SlotId) : Prop :=
  ∃ (o : Outlet) (u : State), s.outlet c = some o ∧
    u = s.setClaim c { holder := some { slot := j, step := (s.slot j).curStep, kw := min st.kw o.fixed.ratedKw }, waiters := rest } ∧
    ((st.targetTemp ≠ 0 ∧ (s.sensor (branchInput c)).faulted = false ∧ t = u.setSlot j { s.slot j with phase := .reaching }) ∨
     (st.targetTemp = 0 ∧ 0 < st.holdMin ∧
      t = u.setSlot j { s.slot j with phase := .holding, reach := none, hold := some (st.holdMin * 60) }))

/-- The claim of outlet `c`, just released, comes to rest (R146): free with no step waiting; taken by the head of its queue; or a
head that needs a temperature on a FAULTED input fails with SENSOR and releases it in its turn (R152), its run ending there. -/
inductive State.PassesOn (c : Channel) : State → State → Prop where
  | free (s : State) : s.claim c = { holder := none, waiters := [] } → PassesOn c s s
  | taken (s t : State) (j : SlotId) (rest : List SlotId) (st : Step) : s.claim c = { holder := none, waiters := j :: rest } →
      j ∉ rest → (s.slot j).currentStep = some st → s.takesClaim t c j st rest → PassesOn c s t
  | sensor (s t : State) (j : SlotId) (rest : List SlotId) (st : Step) : s.claim c = { holder := none, waiters := j :: rest } →
      j ∉ rest → (s.slot j).currentStep = some st → st.channel = c → st.targetTemp ≠ 0 →
      (s.sensor (branchInput c)).faulted = true → (s.slot j).continueOnFault = false →
      PassesOn c (s.setClaim c { holder := none, waiters := rest }) t → PassesOn c s (t.runFaulted j .sensor)

/-- Why a step on outlet `c` that finds the claim free, or held, fails in the event of its beginning: a check of R145 in its
order, or on taking the free claim a FAULTED input that it needs (R146). -/
def State.failsBeginning (s : State) (st : Step) (why : FailReason) : Prop :=
  (s.outlet st.channel = none ∧ why = .noOutlet) ∨
  ∃ o : Outlet, s.outlet st.channel = some o ∧
    ((o.feederOf ≠ none ∧ why = .feeder) ∨
     (o.feederOf = none ∧ (o.bars.prog = true ∨ o.bars.all = true) ∧ why = .barred) ∨
     (o.feederOf = none ∧ o.bars.prog = false ∧ o.bars.all = false ∧
      ((o.state = .faulted ∧ why = .travel) ∨ (o.state = .held ∧ why = .handoff) ∨
       (o.state ≠ .faulted ∧ o.state ≠ .held ∧ s.claim st.channel = { holder := none, waiters := [] } ∧ st.targetTemp ≠ 0 ∧
        (s.sensor (branchInput st.channel)).faulted = true ∧ why = .sensor))))

/-- The outlet passes the checks of R145. -/
def Outlet.takesSteps (o : Outlet) : Prop :=
  o.feederOf = none ∧ o.bars.prog = false ∧ o.bars.all = false ∧ o.state ≠ .faulted ∧ o.state ≠ .held

/-- The step of index `idx` of slot `i` begins on an outlet that passes the checks, and stays there (R145, R146): behind a held
claim, as the last of its queue, or with the free claim. -/
def State.begins (s t : State) (i : SlotId) (idx : Nat) : Prop :=
  ∃ (st : Step) (o : Outlet) (u : State), 1 ≤ idx ∧ (s.slot i).steps[idx - 1]? = some st ∧ s.outlet st.channel = some o ∧
    o.takesSteps ∧ u = s.setSlot i ((s.slot i).begun idx st) ∧
    ((∃ h : Holder, (s.claim st.channel).holder = some h ∧
        t = u.setClaim st.channel { s.claim st.channel with waiters := (s.claim st.channel).waiters ++ [i] }) ∨
     (s.claim st.channel = { holder := none, waiters := [] } ∧ u.takesClaim t st.channel i st []))

/-- A pass of slot `i` ends, by the table of R154. -/
def State.endsPass (s t : State) (i : SlotId) : Prop :=
  ∃ x y : ProgSlot, x = s.slot i ∧
    y = { x with phase := .none, reach := none, hold := none, curStep := 0,
                 loopsLeft := if x.loops = 0 then x.loopsLeft else x.loopsLeft - 1 } ∧
    ((x.loops ≠ 0 ∧ y.loopsLeft = 0 ∧ t = raise .program (s.setSlot i { y with state := .done })) ∨
     ((x.loops = 0 ∨ y.loopsLeft ≠ 0) ∧ x.intervalMin = 0 ∧ t = s.setSlot i { y with gap := some 1 }) ∨
     ((x.loops = 0 ∨ y.loopsLeft ≠ 0) ∧ x.intervalMin ≠ 0 ∧ t = s.setSlot i
       { y with state := .waiting, waitMinute := some ((x.loopStart + x.intervalMin) % 10080) }))

/-- Slot `i` goes on behind its current step (R149, R153): to its next step, which stays where it begins, or to the end of the
pass. -/
def State.goesOn (s t : State) (i : SlotId) : Prop :=
  ((s.slot i).curStep < (s.slot i).steps.length ∧ s.begins t i ((s.slot i).curStep + 1)) ∨
  ((s.slot i).steps.length ≤ (s.slot i).curStep ∧ s.endsPass t i)

/-- The failed step of slot `i` is recorded, once what it held is given up (R153, 2 to 4): the run ends in FAULTED, or with
CONTINUE_ON_FAULT YES the slot goes on. -/
def State.settles (s t : State) (i : SlotId) (why : FailReason) : Prop :=
  ((s.slot i).continueOnFault = false ∧ t = s.runFaulted i why) ∨
  ((s.slot i).continueOnFault = true ∧ (s.setSlot i ((s.slot i).failed why)).goesOn t i)

/-! ### Move needs (R98) -/

/-- The move need of a target at an estimate, with the pool's DEADBAND and the levels of OLIM and CLIM (R98). -/
def needIs (d : Option MoveDir) (target est deadband : Nat) (olim clim : Bool) : Prop :=
  let still := target ≤ est + deadband ∧ est ≤ target + deadband ∧ (target = 0 → clim = true) ∧ (target = 1000 → olim = true)
  match d with
  | none => still
  | some .closing => ¬still ∧ (target = 0 ∨ target < est)
  | some .opening => ¬still ∧ target ≠ 0 ∧ (target = 1000 ∨ est < target)

/-- The kind and the move timer of a move in a direction, from the channel's record and the stroke (R103). -/
def moveIs (d : MoveDir) (p : Position) (stroke : Nat) (k : MoveKind) (timer : Nat) : Prop :=
  match d with
  | .closing =>
    ((p.homeReq = true ∨ (p.target = some 0 ∧ p.drift = true)) ∧ k = .homing ∧ timer = stroke * 1250) ∨
    (p.homeReq = false ∧ p.target = some 0 ∧ p.drift = false ∧ k = .toClosed ∧ timer = p.est * stroke + stroke * 250) ∨
    (p.homeReq = false ∧ ∃ t : Nat, p.target = some t ∧ 0 < t ∧ k = .intermediate ∧ timer = (p.est - t) * stroke)
  | .opening =>
    (p.target = some 1000 ∧ k = .toOpen ∧ timer = (1000 - p.est) * stroke + stroke * 250) ∨
    ∃ t : Nat, p.target = some t ∧ t ≠ 1000 ∧ k = .intermediate ∧ timer = (t - p.est) * stroke

/-- The motion queue holds these entries. -/
def State.withQueue (s : State) (closing opening : List Channel) : State :=
  { s with drive := { s.drive with closing := closing, opening := opening } }

/-- The arbiter passes over the channel's entry: its pause runs, or its bank's hand-off input is asserted (R102). -/
def State.passedOver (s : State) (c : Channel) : Prop :=
  (s.position c).pause ≠ none ∨ s.handoff.bho.get (bankOf c) = true

/-! ### Outlets and drive -/

/-- The outlet `u` of channel `c` after a homing that a slot grant completes at once: CLIM is active alone, and STATE is IDLE, or
LOCKED under BAR_ALL (R103, R120). -/
def State.homesAtOnce (s : State) (c : Channel) (u : Outlet) : Prop :=
  s.climActive c = true ∧ s.olimActive c = false ∧ u.state = if u.bars.all = true then .locked else .idle

/-- The outlet `u` of channel `c` after a slot grant that finds both limits active: FAULTED with BOTH_LIMITS (R103, R121). -/
def State.failsAtOnce (s : State) (c : Channel) (u : Outlet) : Prop :=
  s.climActive c = true ∧ s.olimActive c = true ∧ u.state = .faulted ∧ u.lastFault = some .bothLimits

/-- An outlet's GRANT and ASSUMED_DRAW against its STATE and its pool's enable: GRANT 0 unless eligible in an enabled pool
(R5), ASSUMED_DRAW 0 while eligible or LOCKED (R18, R22). -/
def Outlet.grantsRight (o : Outlet) (enabled : Bool) : Prop :=
  ((o.state.eligible = false ∨ enabled = false) → o.grant = 0) ∧
  ((o.state.eligible = true ∨ o.state = .locked) → o.assumedDraw = 0)

/-- Every outlet's grant is right, and a disabled pool has no running round timer (R5, R31). -/
def State.grantsRight (s : State) : Prop :=
  (∀ (c : Channel) (o : Outlet), s.outlet c = some o → o.grantsRight (s.pool o.fixed.pool).settings.enable) ∧
  ∀ p : Pool, (s.pool p).settings.enable = false → (s.pool p).roundTimer = none

/-- At most eight channels drive at a time (R102). -/
def State.drivesBounded (s : State) : Prop :=
  s.slotsHeld ≤ Config.driveSlots

/-- The motion queue holds each channel at most once, and never a channel that drives (R100). -/
def State.queueRight (s : State) : Prop :=
  (s.drive.closing ++ s.drive.opening).Nodup ∧
  ∀ c ∈ s.drive.closing ++ s.drive.opening, (s.position c).move = none

/-- While a bank is handed off, its channels are still and unqueued, with no pause and no homing request, and its outlets are HELD,
FAULTED or UNCONFIGURED (R130, R132). -/
def State.handoffRight (s : State) : Prop :=
  ∀ c : Channel, s.handedOff c = true →
    (s.position c).move = none ∧ (s.position c).homeReq = false ∧ (s.position c).pause = none ∧
    c ∉ s.drive.closing ∧ c ∉ s.drive.opening ∧ ∀ o ∈ s.outlet c, o.state = .held ∨ o.state = .faulted

/-- A position record within the ranges of 6.1. -/
def Position.inRange (p : Position) : Prop :=
  p.est ≤ 1000 ∧ (∀ t : Nat, p.target = some t → t ≤ 1000) ∧ p.travel ≤ Config.travelMax ∧
  (p.drift = false → p.travel < Config.driftTravel)

/-- Every position record is within its ranges. -/
def State.positionsInRange (s : State) : Prop :=
  ∀ c : Channel, (s.position c).inRange

end Sys2Proof.Machine
end

