-- ==== Sys2Proof/Certificates/Slice0/Obligations.lean ====
section
/-! DEFINITION. The statements for the provers. -/

open Sys2Proof Sys2Proof.Machine

/-! ### The machine, resets, and the time while RSTn is low -/

/-- A step takes the command at the front of the queue and is that command's `exec` on the state with the queue's rest. -/
def Obligations.StepRunsFrontCommand : Prop :=
  ∀ (s : State) (c : Instr) (rest : List Instr), s.pending = c :: rest → step s = exec c { s with pending := rest }

/-- The model's choice (log 4): with no command waiting, a step is one tick of the millisecond timebase, which counts the move,
check, pause and receiver gap timers and the leg of a move, and changes nothing else; it does nothing while RSTn is low or at
the last tick of the second. -/
def Obligations.IdleStepIsOneMillisecond : Prop :=
  ∀ s : State, s.pending = [] →
    ((s.rstLow = true ∨ 999 ≤ s.msPhase) → step s = .next s) ∧
    (s.rstLow = false → s.msPhase < 999 → ∃ t : State, step s = .next t ∧
      (∀ c : Channel, t.position c = { s.position c with
        pause := (s.position c).pause.map (fun n => n - 1),
        move := (s.position c).move.map fun m => { m with
          timer := m.timer - 1, elapsed := m.elapsed + min 1 m.timer, check := m.check.map (fun n => n - 1) } }) ∧
      t = { s with msPhase := s.msPhase + 1, drive := { s.drive with positions := t.drive.positions },
                   link := { s.link with rxGap := s.link.rxGap.map (fun n => n - 1) } })

/-- HARDWARE_RESET (R189, R176): every block takes its values of hardware reset, the speed is that of the straps, the timebase
starts afresh, and the levels of the input lines and the waiting commands stand. That the command is taken in every state, also
with RSTn already high, where R189 gives no rise, is the model's choice (log 7). -/
def Obligations.HardwareResetLeavesResetValues : Prop :=
  ∀ (s : State) (spd1 spd0 : Bool), ∃ t : State, exec (.hardwareReset spd1 spd0) s = .next t ∧ t.atReset ∧
    t.rstLow = false ∧ t.msPhase = 0 ∧ t.pending = s.pending ∧ t.drive.olim = s.drive.olim ∧
    t.drive.clim = s.drive.clim ∧ t.handoff.bho = s.handoff.bho ∧
    t.link.speed = (match spd1, spd0 with
      | false, false => .b19200
      | false, true => .b57600
      | true, false => .b115200
      | true, true => .b230400)

/-- The state after reset holds the reset values, and meets every invariant below. The input levels it holds besides are the
model's choice (log 8). -/
def Obligations.ResetStateHoldsResetValues : Prop :=
  State.reset.atReset ∧ State.reset.rstLow = false ∧ State.reset.pending = [] ∧ State.reset.linkBounded ∧
    State.reset.framesFit ∧ State.reset.storeBounded ∧ State.reset.rangesApart ∧ State.reset.logBounded ∧
    State.reset.scannerInRange ∧ State.reset.grantsRight ∧ State.reset.drivesBounded ∧ State.reset.positionsInRange ∧
    State.reset.queueRight ∧ State.reset.claimsRight ∧ State.reset.handoffRight

/-- RSTN_ASSERTED (R189): the part only holds RSTn low, and then every OPEN and CLOSE output is off, LTX is idle, ATTN and every
BHA output are negated. While RSTn is low the part takes no event: every command but HARDWARE_RESET leaves everything but the
levels of the limit and hand-off inputs, and RSTn, as it is (the input lines follow their events by the model's choice, log 7).
-/
def Obligations.LowRstnHoldsOutputsAndState : Prop :=
  (∀ s : State, exec .rstnAsserted s = .next { s with rstLow := true }) ∧
  (∀ t : State, t.rstLow = true →
    (∀ c : Channel, t.openOutput c = false ∧ t.closeOutput c = false) ∧ t.ltxOutput = [] ∧ t.attnOutput = false ∧
    ∀ b : BankId, t.bhaOutput b = false) ∧
  ∀ (s : State) (c : Instr), s.rstLow = true → (∀ spd1 spd0 : Bool, c ≠ .hardwareReset spd1 spd0) →
    ∃ t : State, exec c s = .next t ∧
      t = { s with drive := { s.drive with olim := t.drive.olim, clim := t.drive.clim },
                   handoff := { s.handoff with bho := t.handoff.bho } }

/-- RESET (R188): the execution makes the DONE reply ready and marks the reset as due; when the first frame has then been sent,
every block takes its reset values, with the speed, the phase of the timebase and the input levels kept. -/
def Obligations.ResetFollowsItsReply : Prop :=
  (∀ (s : State) (f : Frame) (rest : List Frame), s.takes f rest → f.kind = 0x1A → f.payload = [] →
    exec .reset s = .next
      (({ s.dequeue rest with link := { (s.dequeue rest).link with resetDue := true } } : State).answered f ⟨.done, []⟩)) ∧
  ∀ (s : State) (f : Frame) (rest : List Frame), s.rstLow = false → s.link.tx = f :: rest → s.link.resetDue = true →
    ∃ t : State, exec .frameSent s = .next t ∧ t.atReset ∧ t.rstLow = false ∧ t.link.speed = s.link.speed ∧
      t.msPhase = s.msPhase ∧ t.pending = s.pending ∧ t.drive.olim = s.drive.olim ∧ t.drive.clim = s.drive.clim ∧
      t.handoff.bho = s.handoff.bho

/-- FRAME_SENT (R182): the oldest frame leaves the transmit order and nothing else changes, unless a reset is due; with no frame
ready nothing happens. -/
def Obligations.SentFrameLeavesTransmitOrder : Prop :=
  ∀ s : State, s.rstLow = false →
    (s.link.tx = [] → exec .frameSent s = .next s) ∧
    ∀ (f : Frame) (rest : List Frame), s.link.tx = f :: rest → s.link.resetDue = false →
      exec .frameSent s = .next { s with link := { s.link with tx := rest } }

/-! ### Receiver and request queue -/

/-- FRAME_ARRIVAL decodes what the frame layout encodes (R177, R178, R179): the bytes of any well-formed frame, arriving while
the receiver hunts, hand exactly that frame to the request queue: it joins the tail of a queue of fewer than 4, and otherwise is
answered QUEUE_FULL with no data while fewer than 6 frames are ready, or dropped. -/
def Obligations.ArrivingFrameIsHandedOn : Prop :=
  ∀ (s : State) (f : Frame), s.rstLow = false → s.link.rxBuf = none → f.wellFormed = true →
    (s.link.queue.length < 4 → exec (.frameArrival (frameBytes f)) s =
      .next { s with link := { s.link with rxGap := none, queue := s.link.queue ++ [f] } }) ∧
    (4 ≤ s.link.queue.length → s.link.tx.length < 6 → exec (.frameArrival (frameBytes f)) s =
      .next { s with link := { s.link with
        rxGap := none, tx := s.link.tx ++ [{ kind := f.kind ||| 0x80, tag := f.tag, payload := [0x02] }] } }) ∧
    (4 ≤ s.link.queue.length → 6 ≤ s.link.tx.length → exec (.frameArrival (frameBytes f)) s =
      .next { s with link := { s.link with rxGap := none } })

/-- A frame with a LEN below 2 or above 120, or with a wrong CRC, is discarded without reply (R178): where no START stands among
the bytes behind its own, nothing of it is left. -/
def Obligations.BadFrameIsDiscarded : Prop :=
  ∀ s : State, s.rstLow = false → s.link.rxBuf = none →
    (∀ (len : Byte) (more : List Byte), (len.toNat < 2 ∨ 120 < len.toNat) → (0x3C : Byte) ∉ more →
      exec (.frameArrival (0x3C :: len :: more)) s = .next { s with link := { s.link with rxGap := none } }) ∧
    ∀ (len : Byte) (body crc : List Byte), 2 ≤ len.toNat → len.toNat ≤ 120 → body.length = len.toNat → crc.length = 2 →
      crc ≠ be16 (crc16 (len :: body)).toNat → (0x3C : Byte) ∉ len :: (body ++ crc) →
      exec (.frameArrival (0x3C :: len :: (body ++ crc))) s = .next { s with link := { s.link with rxGap := none } }

/-- Bytes are examined one at a time (R178): a run of bytes may be split anywhere, and the two parts taken one after the other
come to the same. -/
def Obligations.ArrivalMayBeSplit : Prop :=
  ∀ (s t : State) (xs ys : List Byte), s.rstLow = false → xs ≠ [] → ys ≠ [] →
    exec (.frameArrival xs) s = .next t → exec (.frameArrival ys) t = exec (.frameArrival (xs ++ ys)) s

/-- GAP_TIMER_EXPIRY (R178): the frame being received is discarded and the bytes behind its START are examined again: where no
START is among them the receiver hunts, and a frame that lies wholly within them is received in full. A stopped or running timer
has not expired (the model's reading, log 2). -/
def Obligations.GapExpiryExaminesAgain : Prop :=
  ∀ s : State, s.rstLow = false →
    ((s.link.rxBuf = none ∨ s.link.rxGap ≠ some 0) → exec .gapTimerExpiry s = .next s) ∧
    ∀ taken : List Byte, s.link.rxBuf = some taken → s.link.rxGap = some 0 →
      ((0x3C : Byte) ∉ taken →
        exec .gapTimerExpiry s = .next { s with link := { s.link with rxBuf := none, rxGap := none } }) ∧
      ∀ (junk : List Byte) (f : Frame), taken = junk ++ frameBytes f → (0x3C : Byte) ∉ junk → f.wellFormed = true →
        s.link.queue.length < 4 → exec .gapTimerExpiry s =
          .next { s with link := { s.link with rxBuf := none, rxGap := none, queue := s.link.queue ++ [f] } }

/-- Requests execute one at a time, after the reply before them has been sent (R180): with a frame in the transmit order, with
no frame in the queue, or for another row than the head frame's, no execution takes place (the model's reading, log 1). A KIND
that names no request is answered BAD_KIND, a payload of a length that 11.4 does not give its kind BAD_LENGTH, and the frame
leaves the queue with nothing else changed. The lengths: 23, 2, 12, 5, 4n with n 1 to 16, 16 for STEAM and 14 for an HW pool, 9,
1 + 2n with n 0 to 16, 8 + 9k with k 0 to 12 for a FIRST part and 2 + 9k with k 1 to 12 for a NEXT part, 3, 1 and 0. An unknown
pool code or part code fits at either length; the row under which such a PROG-LOAD is executed, or one too short for a part
code, is the model's reading (log 22). -/
def Obligations.ExecutionWaitsAndChecksFrame : Prop :=
  (∀ (s : State) (g : Frame),
    (s.link.tx ≠ [] ∨ s.link.queue = [] ∨ ∀ f : Frame, s.link.queue.head? = some f → requestRow f ≠ requestRow g) →
    exec (requestRow g) s = .next s) ∧
  ∀ (s : State) (f : Frame) (rest : List Frame), s.takes f rest →
    ((f.kind = 0 ∨ 0x1A < f.kind.toNat) → exec .badKind s = .next (s.refused f rest .badKind)) ∧
    (1 ≤ f.kind.toNat → f.kind.toNat ≤ 0x1A → fits (requestRow f) f.payload = false →
      exec (requestRow f) s = .next (s.refused f rest .badLength)) ∧
    ∀ n code part : Nat, n = f.payload.length → code = readByte f.payload 0 → part = readByte f.payload 1 →
      ((f.kind = 0x01 ∧ n ≠ 23) ∨
        ((f.kind = 0x02 ∨ f.kind = 0x06 ∨ f.kind = 0x07 ∨ f.kind = 0x0A ∨ f.kind = 0x12 ∨ f.kind = 0x15) ∧ n ≠ 2) ∨
        (f.kind = 0x03 ∧ n ≠ 12) ∨ (f.kind = 0x04 ∧ n ≠ 5) ∨
        (f.kind = 0x05 ∧ ∀ k : Nat, 1 ≤ k → k ≤ 16 → n ≠ 4 * k) ∨
        (f.kind = 0x08 ∧ n ≠ 16 ∧ n ≠ 14) ∨ (f.kind = 0x08 ∧ code = 0 ∧ n ≠ 16) ∨
        (f.kind = 0x08 ∧ (code = 1 ∨ code = 2) ∧ n ≠ 14) ∨
        ((f.kind = 0x09 ∨ f.kind = 0x0B ∨ f.kind = 0x0F ∨ f.kind = 0x10 ∨ f.kind = 0x13 ∨ f.kind = 0x14 ∨ f.kind = 0x18 ∨
          f.kind = 0x19) ∧ n ≠ 1) ∨
        (f.kind = 0x0C ∧ n ≠ 9) ∨ (f.kind = 0x0D ∧ ∀ k : Nat, k ≤ 16 → n ≠ 1 + 2 * k) ∨
        (f.kind = 0x0E ∧ (part = 1 ∨ ∀ k : Nat, k ≤ 12 → n ≠ 8 + 9 * k) ∧
          (part = 0 ∨ ∀ k : Nat, 1 ≤ k → k ≤ 12 → n ≠ 2 + 9 * k)) ∨
        (f.kind = 0x11 ∧ n ≠ 3) ∨ ((f.kind = 0x16 ∨ f.kind = 0x17 ∨ f.kind = 0x1A) ∧ n ≠ 0)) →
      exec (requestRow f) s = .next (s.refused f rest .badLength)

/-- A refused request leaves the state it would have changed as it was (00_scope.md, "Clamped and refused"): whatever row the
head frame calls for, its execution answers a next state, and either the reply carries DONE or DONE_CLAMPED, or nothing but the
queue and the transmit order has changed. -/
def Obligations.RefusalChangesNothingElse : Prop :=
  ∀ (s : State) (f : Frame) (rest : List Frame), s.takes f rest →
    ∃ (t : State) (a : Answer), exec (requestRow f) s = .next t ∧ t.link.queue = rest ∧
      t.link.tx.getLast? = some (replyTo f a) ∧
      (a.status = .done ∨ a.status = .doneClamped ∨ t = (s.dequeue rest).answered f a)

/-! ### Notices -/

/-- A raise (R183): a kind already pending changes nothing; a masked kind becomes pending; an unmasked one becomes pending and
makes one NOTICE frame ready, with the pending set and the mask as they then stand and the kind as CAUSE; every other kind stays
as it was. -/
def Obligations.RaiseRule : Prop :=
  ∀ (k : NoticeKind) (s : State),
    (s.isPending k = true → raise k s = s) ∧
    (s.isPending k = false → s.isMasked k = true →
      raise k s = { s with link := { s.link with notices := s.link.notices ||| k.bit } }) ∧
    (s.isPending k = false → s.isMasked k = false →
      raise k s = { s with link := { s.link with
        notices := s.link.notices ||| k.bit,
        tx := s.link.tx ++ [{ kind := 0xE0, tag := 0, payload := [s.link.notices ||| k.bit, s.link.mask, k.bit] }] } }) ∧
    ∀ j : NoticeKind, (raise k s).isPending j = (s.isPending j || decide (j = k))

/-- ATTN is asserted exactly when the pending set contains an unmasked kind (R184), and RSTn is high (R189). -/
def Obligations.AttnShowsUnmaskedPending : Prop :=
  ∀ s : State, s.attnOutput = true ↔ s.rstLow = false ∧ ∃ k : NoticeKind, s.isPending k = true ∧ s.isMasked k = false

/-- NOTICE_ACK (R185): each kind named leaves the pending set, the others stay as they are, the reply carries the pending set
and the mask after the removal, and nothing else changes. NOTICE_MASK (R186): the whole byte becomes the mask; if a kind that is
pending comes out of the mask, one NOTICE frame naming exactly those kinds becomes ready ahead of the reply; nothing else
changes. -/
def Obligations.NoticeRequestsAckAndMask : Prop :=
  ∀ (s : State) (f : Frame) (rest : List Frame) (b : Byte), s.takes f rest → f.payload = [b] →
    (f.kind = 0x18 → exec .noticeAck s = .next
      (({ s.dequeue rest with link := { (s.dequeue rest).link with notices := s.link.notices &&& ~~~b } } : State).answered f
        ⟨.done, [s.link.notices &&& ~~~b, s.link.mask]⟩)) ∧
    (∀ k : NoticeKind, ((s.link.notices &&& ~~~b) &&& k.bit = 0) ↔ (s.isPending k = false ∨ b &&& k.bit ≠ 0)) ∧
    (f.kind = 0x19 → exec .noticeMask s = .next { s with link := { s.link with
      queue := rest, mask := b,
      tx := (if s.link.mask &&& ~~~b &&& s.link.notices = 0 then []
             else [{ kind := 0xE0, tag := 0, payload := [s.link.notices, b, s.link.mask &&& ~~~b &&& s.link.notices] }])
        ++ [replyTo f ⟨.done, [s.link.notices, b]⟩] } })

/-! ### Branch addressing -/

/-- Translation (R167 to R170): a channel-form address names its channel, or gives NO_OUTLET at 48 and above; a branch address
that hits no enabled range gives NO_OUTLET; in a range it hits, DIRECT gives CHAN_BASE plus the offset, or NO_OUTLET at 48 and
above, and MAPPED gives the channel of a valid entry at MAP_BASE plus the offset, or UNMAPPED. The ranges do not overlap. -/
def Obligations.TranslationFollowsRangesAndMap : Prop :=
  ∀ (s : State) (addr : Nat), s.rangesApart → addr < 65536 →
    (∀ c : Channel, addr = 32768 + c.val → translate s.xlat addr = .ok c) ∧
    (32768 + 48 ≤ addr → translate s.xlat addr = .error .noOutlet) ∧
    (addr < 32768 → (∀ i : Fin 4, (s.xlat.ranges.get i).hits addr = false) → translate s.xlat addr = .error .noOutlet) ∧
    ∀ i : Fin 4, addr < 32768 → (s.xlat.ranges.get i).enable = true → (s.xlat.ranges.get i).base ≤ addr →
      addr < (s.xlat.ranges.get i).base + (s.xlat.ranges.get i).size →
      ((s.xlat.ranges.get i).mapped = false →
        (∀ c : Channel, c.val = (s.xlat.ranges.get i).chanBase + (addr - (s.xlat.ranges.get i).base) →
          translate s.xlat addr = .ok c) ∧
        (48 ≤ (s.xlat.ranges.get i).chanBase + (addr - (s.xlat.ranges.get i).base) →
          translate s.xlat addr = .error .noOutlet)) ∧
      ((s.xlat.ranges.get i).mapped = true →
        (∀ k : Fin 128, k.val = (s.xlat.ranges.get i).mapBase + (addr - (s.xlat.ranges.get i).base) →
          translate s.xlat addr =
            (if (s.xlat.map.get k).valid = true then .ok (s.xlat.map.get k).channel else .error .unmapped)) ∧
        (128 ≤ (s.xlat.ranges.get i).mapBase + (addr - (s.xlat.ranges.get i).base) →
          translate s.xlat addr = .error .unmapped))

/-- RANGE_SET (R171, R172): a bad index, ENABLE, MODE, SIZE, BASE, CHAN_BASE or MAP_BASE is refused RANGE; addresses shared with
another enabled range are refused OVERLAP with the first such index; otherwise the record is stored as given, and nothing else
changes. -/
def Obligations.RangeSetStoresOrRefuses : Prop :=
  ∀ (s : State) (f : Frame) (rest : List Frame), s.takes f rest → f.kind = 0x0C → f.payload.length = 9 →
    ((4 ≤ readByte f.payload 0 ∨ 2 ≤ readByte f.payload 1 ∨ 2 ≤ readByte f.payload 6 ∨
        (∀ k : Nat, k ≤ 8 → readWord f.payload 4 ≠ 2 ^ k) ∨ 32768 ≤ readWord f.payload 2 ∨
        readWord f.payload 2 % readWord f.payload 4 ≠ 0 ∨ 48 ≤ readByte f.payload 7 ∨ 128 ≤ readByte f.payload 8) →
      exec .rangeSet s = .next (s.refused f rest .range)) ∧
    ∀ (i : Fin 4) (en mapped : Bool) (k base chanBase mapBase : Nat),
      readByte f.payload 0 = i.val → readByte f.payload 1 = en.toNat → readByte f.payload 6 = mapped.toNat → k ≤ 8 →
      readWord f.payload 4 = 2 ^ k → readWord f.payload 2 = base → base < 32768 → base % 2 ^ k = 0 →
      readByte f.payload 7 = chanBase → chanBase < 48 → readByte f.payload 8 = mapBase → mapBase < 128 →
      ((en = false ∨ ∀ j : Fin 4, j ≠ i → (s.xlat.ranges.get j).enable = true → ∀ a : Nat,
          base ≤ a → a < base + 2 ^ k → (s.xlat.ranges.get j).hits a = false) →
        (∀ j : Fin 4, 0 < (s.xlat.ranges.get j).size) →
        ∃ rs : Table BranchRange 4,
          rs = s.xlat.ranges.set i { enable := en, base, size := 2 ^ k, mapped, chanBase, mapBase } ∧
          exec .rangeSet s = .next
            (({ s.dequeue rest with xlat := { s.xlat with ranges := rs } } : State).answered f ⟨.done, []⟩)) ∧
      ∀ (j : Fin 4) (a : Nat), en = true → j ≠ i → base ≤ a → a < base + 2 ^ k → (s.xlat.ranges.get j).hits a = true →
        (∀ l : Fin 4, l < j → l ≠ i → ∀ b : Nat, base ≤ b → b < base + 2 ^ k → (s.xlat.ranges.get l).hits b = false) →
        (∀ l : Fin 4, 0 < (s.xlat.ranges.get l).size) →
        exec .rangeSet s = .next ((s.dequeue rest).answered f ⟨.overlap, [byte j.val]⟩)

/-- MAP_SET (R173): a list that does not fit the map is refused RANGE with position 0; the first entry with a bad VALID, and
then the first valid entry with a bad CHANNEL, is refused RANGE with its position; otherwise the entries are written to
consecutive indices from START, an entry with VALID NO with CHANNEL 0, every other entry and everything else is unchanged, and
the reply carries the map from START for 16 entries or up to index 127. -/
def Obligations.MapSetWritesOrRefuses : Prop :=
  ∀ (s : State) (f : Frame) (rest : List Frame) (start : Byte) (entries : List (Byte × Byte)),
    s.takes f rest → f.kind = 0x0D → f.payload = start :: entries.flatMap (fun e => [e.1, e.2]) → entries.length ≤ 16 →
    ((128 ≤ start.toNat ∨ 128 < start.toNat + entries.length) →
      exec .mapSet s = .next ((s.dequeue rest).answered f ⟨.range, [0]⟩)) ∧
    (start.toNat + entries.length ≤ 128 → start.toNat < 128 →
      (∀ (k : Nat) (e : Byte × Byte), entries[k]? = some e →
        ((2 ≤ e.1.toNat ∧ ∀ d ∈ entries.take k, d.1.toNat < 2) ∨
         ((∀ d ∈ entries, d.1.toNat < 2) ∧ e.1 = 1 ∧ 48 ≤ e.2.toNat ∧
          ∀ d ∈ entries.take k, d.1 = 1 → d.2.toNat < 48)) →
        exec .mapSet s = .next ((s.dequeue rest).answered f ⟨.range, [byte (k + 1)]⟩)) ∧
      ((∀ e ∈ entries, e.1 = 0 ∨ (e.1 = 1 ∧ e.2.toNat < 48)) →
        ∃ m : Table MapEntry 128,
          exec .mapSet s = .next (({ s.dequeue rest with xlat := { s.xlat with map := m } } : State).answered f
            ⟨.done, ((m.toList.drop start.toNat).take 16).flatMap fun e => [flagByte e.valid, byte e.channel.val]⟩) ∧
          (∀ j : Fin 128, (j.val < start.toNat ∨ start.toNat + entries.length ≤ j.val) → m.get j = s.xlat.map.get j) ∧
          ∀ (k : Nat) (e : Byte × Byte) (j : Fin 128), entries[k]? = some e → j.val = start.toNat + k →
            (m.get j).valid = decide (e.1 = 1) ∧ (m.get j).channel.val = if e.1 = 1 then e.2.toNat else 0))

/-! ### Outlet Table -/

/-- The clamps of OUTLET-SET and PROFILE-SET (R7): a value past the end of its range takes the nearest one in it, each limit
taken after the value it depends on, and values within their ranges are not changed. The CLASS, POOL, STROKE_S and AUTO_RECOVER
are not clamped. For an outlet of HW1 or HW2, WARM_TEMP, WARM_MAX_S and WARM_KW are stored as 0, and nothing else differs (R8).
-/
def Obligations.OutletClampsGiveRanges : Prop :=
  ∀ (x : FixedPart) (y : Profile) (rated : Nat),
    ((clampFixed x).ratedKw = min x.ratedKw 2000 ∧ (clampFixed x).fallbackKw = min x.fallbackKw (clampFixed x).ratedKw ∧
      (clampFixed x).warmMaxS = min x.warmMaxS 1800 ∧ -200 ≤ (clampFixed x).warmTemp ∧ (clampFixed x).warmTemp ≤ 2000 ∧
      (x.warmTemp < -200 → (clampFixed x).warmTemp = -200) ∧ (2000 < x.warmTemp → (clampFixed x).warmTemp = 2000) ∧
      (-200 ≤ x.warmTemp → x.warmTemp ≤ 2000 → (clampFixed x).warmTemp = x.warmTemp) ∧
      (clampFixed x).pool = x.pool ∧ (clampFixed x).strokeS = x.strokeS ∧ (clampFixed x).autoRecover = x.autoRecover) ∧
    ((clampProfile rated y).maxKw = min y.maxKw rated ∧
      (clampProfile rated y).floorKw = min y.floorKw (clampProfile rated y).maxKw ∧
      1 ≤ (clampProfile rated y).weight ∧ (clampProfile rated y).weight ≤ 15 ∧
      (y.weight = 0 → (clampProfile rated y).weight = 1) ∧ (15 < y.weight → (clampProfile rated y).weight = 15) ∧
      (1 ≤ y.weight → y.weight ≤ 15 → (clampProfile rated y).weight = y.weight) ∧
      (clampProfile rated y).warmKw = min y.warmKw rated ∧ (clampProfile rated y).tolerance = max 1 y.tolerance ∧
      (clampProfile rated y).cls = y.cls) ∧
    (x.ratedKw ≤ 2000 → x.fallbackKw ≤ x.ratedKw → x.warmMaxS ≤ 1800 → -200 ≤ x.warmTemp → x.warmTemp ≤ 2000 →
      clampFixed x = x) ∧
    (y.maxKw ≤ rated → y.floorKw ≤ y.maxKw → 1 ≤ y.weight → y.weight ≤ 15 → y.warmKw ≤ rated → 1 ≤ y.tolerance →
      clampProfile rated y = y) ∧
    (x.pool = .steam → hwFixed x = x) ∧ hwProfile .steam y = y ∧
    ∀ h : HwPool, (x.pool = .hw h → hwFixed x = { x with warmTemp := 0, warmMaxS := 0 }) ∧
      hwProfile (.hw h) y = { y with warmKw := 0 }

/-- OUTLET_SET on an UNCONFIGURED channel (R9, R11; R8 through `hwFixed` and `hwProfile`), with the fields where 11.5 lays them:
the record is created with the clamped fields in the fixed part and both sets, the bars clear, the dynamic part at 0; the host
demand record becomes absent and the tolerance counter is loaded; the status is DONE where R7 clamped no value, and DONE_CLAMPED
otherwise (for hot-water outlets the model's reading, log 10); in a handed-off bank the outlet is HELD and nothing else changes,
and otherwise it is HOMING with a homing request. -/
def Obligations.OutletSetCreatesRecord : Prop :=
  ∀ (s : State) (f : Frame) (rest : List Frame) (c : Channel) (pool : Pool) (ar : Bool) (cls : ServiceClass),
    s.takes f rest → f.kind = 0x01 → f.payload.length = 23 → translate s.xlat (readWord f.payload 0) = .ok c →
    poolOf (readByte f.payload 2) = some pool → flagOf (readByte f.payload 9) = some ar →
    classOf (readByte f.payload 14) = some cls → 30 ≤ readWord f.payload 5 → readWord f.payload 5 ≤ 600 →
    readWord f.payload 3 ≠ 0 → s.outlet c = none →
    ∀ (raw : FixedPart) (rawX : Profile),
      raw = { pool := pool, ratedKw := readWord f.payload 3, strokeS := readWord f.payload 5,
              fallbackKw := readWord f.payload 7, autoRecover := ar, warmTemp := readInt f.payload 10,
              warmMaxS := readWord f.payload 12 } →
      rawX = { cls := cls, floorKw := readWord f.payload 15, maxKw := readWord f.payload 17,
               weight := readByte f.payload 19, warmKw := readWord f.payload 20, tolerance := readByte f.payload 22 } →
      ∃ (fx : FixedPart) (prof : Profile) (st : Status), fx = hwFixed (clampFixed raw) ∧
      prof = hwProfile pool (clampProfile fx.ratedKw rawX) ∧ (st = .done ∨ st = .doneClamped) ∧
      (st = .done ↔ clampFixed raw = raw ∧ clampProfile fx.ratedKw rawX = rawX) ∧
      exec .outletSet s = .next (State.answered
        (let made (st : OutletState) : State :=
          (((s.dequeue rest).setOutlet c (some
            { fixed := fx, setA := prof, setB := prof, bars := { host := false, prog := false, all := false }, state := st,
              grant := 0, effDemand := 0, assumedDraw := 0, feederOf := none, feederDemand := 0, warmTimer := none,
              recovery := false, lastFault := none })).setDemand c .absent).setCurtailment c
                { counter := prof.tolerance, floorCut := false }
        if s.handedOff c = true then made .held else requestHoming c (made .homing))
        f ⟨st, [byte c.val]⟩)

/-- OUTLET_SET on a present record (R6, R10, R11): in HOMING, WARMING, SERVING and HELD it is refused STATE; a feeder keeps to
STEAM and a claimed outlet is left alone, or it is refused CONFLICT; otherwise the fixed part and both sets are rewritten from
the fields where 11.5 lays them, GRANT and EFF_DEMAND become 0, the host demand record becomes absent, the tolerance counter is
loaded, and nothing else changes. The status is DONE where R7 clamped no value, and DONE_CLAMPED otherwise (for hot-water
outlets the model's reading, log 10). -/
def Obligations.OutletSetReplacesRecord : Prop :=
  ∀ (s : State) (f : Frame) (rest : List Frame) (c : Channel) (o : Outlet) (pool : Pool) (ar : Bool) (cls : ServiceClass),
    s.takes f rest → f.kind = 0x01 → f.payload.length = 23 → translate s.xlat (readWord f.payload 0) = .ok c →
    poolOf (readByte f.payload 2) = some pool → flagOf (readByte f.payload 9) = some ar →
    classOf (readByte f.payload 14) = some cls → 30 ≤ readWord f.payload 5 → readWord f.payload 5 ≤ 600 →
    readWord f.payload 3 ≠ 0 → s.outlet c = some o →
    ∀ (raw : FixedPart) (rawX : Profile),
      raw = { pool := pool, ratedKw := readWord f.payload 3, strokeS := readWord f.payload 5,
              fallbackKw := readWord f.payload 7, autoRecover := ar, warmTemp := readInt f.payload 10,
              warmMaxS := readWord f.payload 12 } →
      rawX = { cls := cls, floorKw := readWord f.payload 15, maxKw := readWord f.payload 17,
               weight := readByte f.payload 19, warmKw := readWord f.payload 20, tolerance := readByte f.payload 22 } →
    ((o.state = .homing ∨ o.state = .warming ∨ o.state = .serving ∨ o.state = .held) →
      exec .outletSet s = .next (s.refused f rest .state)) ∧
    ((o.state = .idle ∨ o.state = .locked ∨ o.state = .faulted) →
      ((o.feederOf ≠ none ∧ pool ≠ .steam) ∨ (s.claim c).holder ≠ none →
        exec .outletSet s = .next (s.refused f rest .conflict)) ∧
      ((o.feederOf = none ∨ pool = .steam) → (s.claim c).holder = none →
        ∃ (fx : FixedPart) (prof : Profile) (st : Status),
          fx = hwFixed (clampFixed raw) ∧ prof = hwProfile pool (clampProfile fx.ratedKw rawX) ∧
          (st = .done ∨ st = .doneClamped) ∧
          (st = .done ↔ clampFixed raw = raw ∧ clampProfile fx.ratedKw rawX = rawX) ∧
          exec .outletSet s = .next (((((s.dequeue rest).setOutlet c (some
            { o with fixed := fx, setA := prof, setB := prof, grant := 0, effDemand := 0 })).setDemand c .absent).setCurtailment c
              { counter := prof.tolerance, floorCut := false }).answered f ⟨st, [byte c.val]⟩)))

/-- OUTLET_SET's checks before STATE (R6): an address that does not translate gives the translator's code; a bad POOL,
AUTO_RECOVER or CLASS, a STROKE_S outside 30 to 600 or a RATED_KW of 0 gives RANGE. -/
def Obligations.OutletSetRefusesBadFields : Prop :=
  ∀ (s : State) (f : Frame) (rest : List Frame), s.takes f rest → f.kind = 0x01 → f.payload.length = 23 →
    (∀ st : Status, translate s.xlat (readWord f.payload 0) = .error st → exec .outletSet s = .next (s.refused f rest st)) ∧
    ∀ c : Channel, translate s.xlat (readWord f.payload 0) = .ok c →
      (3 ≤ readByte f.payload 2 ∨ 2 ≤ readByte f.payload 9 ∨ 4 ≤ readByte f.payload 14 ∨ readWord f.payload 5 < 30 ∨
        600 < readWord f.payload 5 ∨ readWord f.payload 3 = 0) → exec .outletSet s = .next (s.refused f rest .range)

/-- OUTLET_DROP (R12, R13): refused with the translator's code, STATE or CONFLICT in the order of R12; otherwise the record and
the host demand record become absent and the channel is stopped. A channel that does not drive loses its queue entry, pause,
homing request and target, and nothing else changes. -/
def Obligations.OutletDropRemovesRecord : Prop :=
  ∀ (s : State) (f : Frame) (rest : List Frame), s.takes f rest → f.kind = 0x02 → f.payload.length = 2 →
    (∀ st : Status, translate s.xlat (readWord f.payload 0) = .error st → exec .outletDrop s = .next (s.refused f rest st)) ∧
    ∀ c : Channel, translate s.xlat (readWord f.payload 0) = .ok c →
      (s.outlet c = none → exec .outletDrop s = .next (s.refused f rest .state)) ∧
      ∀ o : Outlet, s.outlet c = some o →
        ((o.state = .homing ∨ o.state = .warming ∨ o.state = .serving ∨ o.state = .held) →
          exec .outletDrop s = .next (s.refused f rest .state)) ∧
        ((o.state = .idle ∨ o.state = .locked ∨ o.state = .faulted) →
          ((o.feederOf ≠ none ∨ (s.claim c).holder ≠ none) → exec .outletDrop s = .next (s.refused f rest .conflict)) ∧
          (o.feederOf = none → (s.claim c).holder = none →
            exec .outletDrop s = .next
              ((stopChannel c (((s.dequeue rest).setOutlet c none).setDemand c .absent)).answered f ⟨.done, [byte c.val]⟩) ∧
            ((s.position c).move = none → exec .outletDrop s = .next
              ((((((s.dequeue rest).setOutlet c none).setDemand c .absent).setPosition c
                { s.position c with pause := none, homeReq := false, target := none }) |> removeEntry c).answered f
                  ⟨.done, [byte c.val]⟩))))

/-- PROFILE_SET (R14, R15): refused with the translator's code, RANGE, STATE or PENDING in the order of R14; otherwise the six
fields of the named set take the clamped values of the fields where 11.5 lays them, with WARM_KW 0 for a hot-water outlet, and
nothing else changes. -/
def Obligations.ProfileSetWritesInactiveSet : Prop :=
  ∀ (s : State) (f : Frame) (rest : List Frame), s.takes f rest → f.kind = 0x03 → f.payload.length = 12 →
    (∀ st : Status, translate s.xlat (readWord f.payload 0) = .error st → exec .profileSet s = .next (s.refused f rest st)) ∧
    ∀ c : Channel, translate s.xlat (readWord f.payload 0) = .ok c →
      ((2 ≤ readByte f.payload 2 ∨ 4 ≤ readByte f.payload 3) → exec .profileSet s = .next (s.refused f rest .range)) ∧
      ∀ (set : ProfileBank) (cls : ServiceClass), bankOfCode (readByte f.payload 2) = some set →
        classOf (readByte f.payload 3) = some cls →
        (s.outlet c = none → exec .profileSet s = .next (s.refused f rest .state)) ∧
        ∀ o : Outlet, s.outlet c = some o →
          (set = (s.pool o.fixed.pool).activeBank → exec .profileSet s = .next (s.refused f rest .state)) ∧
          (set ≠ (s.pool o.fixed.pool).activeBank → (s.pool o.fixed.pool).swapPending = true →
            exec .profileSet s = .next (s.refused f rest .pending)) ∧
          (set ≠ (s.pool o.fixed.pool).activeBank → (s.pool o.fixed.pool).swapPending = false → ∀ raw : Profile,
            raw = { cls := cls, floorKw := readWord f.payload 4, maxKw := readWord f.payload 6,
                    weight := readByte f.payload 8, warmKw := readWord f.payload 9, tolerance := readByte f.payload 11 } →
            ∃ x : Profile, x = clampProfile o.fixed.ratedKw raw ∧
              exec .profileSet s = .next (((s.dequeue rest).setOutlet c (some
                (match set with
                 | .a => { o with setA := if o.fixed.pool = .steam then x else { x with warmKw := 0 } }
                 | .b => { o with setB := if o.fixed.pool = .steam then x else { x with warmKw := 0 } }))).answered f
                  ⟨if x = raw then .done else .doneClamped, [byte c.val]⟩))

/-- BAR_SET (R16): refused with the translator's code, RANGE or STATE in the order of R16; otherwise the three actions apply
together. BAR_ALL newly set takes an eligible outlet to LOCKED with GRANT, EFF_DEMAND and ASSUMED_DRAW 0, the warm timer stopped
and target 0 given (R18); BAR_ALL newly cleared takes a LOCKED outlet to IDLE (R21); in every other case only the flags change
(R17, R19). BAR_PROG or BAR_ALL newly set then fails the steps on the outlet with BARRED (R151). -/
def Obligations.BarSetAppliesActions : Prop :=
  ∀ (s : State) (f : Frame) (rest : List Frame), s.takes f rest → f.kind = 0x04 → f.payload.length = 5 →
    (∀ st : Status, translate s.xlat (readWord f.payload 0) = .error st → exec .barSet s = .next (s.refused f rest st)) ∧
    ∀ c : Channel, translate s.xlat (readWord f.payload 0) = .ok c →
      ((3 ≤ readByte f.payload 2 ∨ 3 ≤ readByte f.payload 3 ∨ 3 ≤ readByte f.payload 4) →
        exec .barSet s = .next (s.refused f rest .range)) ∧
      (readByte f.payload 2 < 3 → readByte f.payload 3 < 3 → readByte f.payload 4 < 3 →
        (s.outlet c = none → exec .barSet s = .next (s.refused f rest .state)) ∧
        ∀ (o : Outlet) (new : Bars), s.outlet c = some o →
          (readByte f.payload 2 = 0 ∧ new.host = o.bars.host ∨ readByte f.payload 2 = 1 ∧ new.host = true ∨
            readByte f.payload 2 = 2 ∧ new.host = false) →
          (readByte f.payload 3 = 0 ∧ new.prog = o.bars.prog ∨ readByte f.payload 3 = 1 ∧ new.prog = true ∨
            readByte f.payload 3 = 2 ∧ new.prog = false) →
          (readByte f.payload 4 = 0 ∧ new.all = o.bars.all ∨ readByte f.payload 4 = 1 ∧ new.all = true ∨
            readByte f.payload 4 = 2 ∧ new.all = false) →
          (o.bars.all = false → new.all = true → o.state.eligible = true →
            exec .barSet s = .next ((failStepsOn c .barred (giveTarget c 0 ((s.dequeue rest).setOutlet c (some { o with
              bars := new, state := .locked, grant := 0, effDemand := 0, assumedDraw := 0, warmTimer := none })))).answered f
                ⟨.done, [byte c.val]⟩)) ∧
          (o.bars.all = true → new.all = false → o.state = .locked → ¬(o.bars.prog = false ∧ new.prog = true) →
            exec .barSet s = .next (((s.dequeue rest).setOutlet c (some { o with bars := new, state := .idle })).answered f
              ⟨.done, [byte c.val]⟩)) ∧
          (o.bars.all = true → new.all = false → o.state = .locked → o.bars.prog = false → new.prog = true →
            exec .barSet s = .next ((failStepsOn c .barred ((s.dequeue rest).setOutlet c (some
              { o with bars := new, state := .idle }))).answered f ⟨.done, [byte c.val]⟩)) ∧
          ((o.bars.all = new.all ∨ (new.all = true ∧ o.state.eligible = false) ∨ (new.all = false ∧ o.state ≠ .locked)) →
            exec .barSet s = .next
              ((if (o.bars.all = false ∧ new.all = true) ∨ (o.bars.prog = false ∧ new.prog = true) then
                  failStepsOn c .barred ((s.dequeue rest).setOutlet c (some { o with bars := new }))
                else (s.dequeue rest).setOutlet c (some { o with bars := new })).answered f ⟨.done, [byte c.val]⟩)))

/-- Steps fail on an outlet (R151, R152, R153). Where no program on the outlet goes on, a bar newly set, an entry to HELD or one
to FAULTED fails the waiters from tail to head and then the holder: each slot is FAULTED with its step's reason, PROGRAM is
raised, and the claim is left free. A holder that fails alone gives up the claim, which passes to the head of the queue (R146);
a waiter that fails leaves the queue; and then the slot is FAULTED with PROGRAM raised, or with CONTINUE_ON_FAULT YES goes on to
its next step or to the end of the pass. That each of these runs to its end before the next is the model's reading (log 13). -/
def Obligations.BarFailsHoldingStep : Prop :=
  (∀ (s : State) (c : Channel) (h : Holder) (st : Step), (s.claim c).holder = some h → (s.claim c).waiters = [] →
    (s.slot h.slot).currentStep = some st → st.channel = c → (s.slot h.slot).continueOnFault = false →
    failStepsOn c .barred s = raise .program ((s.setClaim c { holder := none, waiters := [] }).setSlot h.slot
      { s.slot h.slot with
        reach := none, hold := none, faultsSeen := true, phase := .none, state := .faulted,
        results := (s.slot h.slot).results.set ((s.slot h.slot).curStep - 1) (.failed .barred) })) ∧
  (∀ (s : State) (c : Channel), (s.claim c).holder = none → (s.claim c).waiters = [] →
    ∀ why : FailReason, failStepsOn c why s = s) ∧
  (∀ (s : State) (c : Channel) (h : Holder) (why : FailReason), (s.claim c).holder = some h → (s.claim c).waiters.Nodup →
    h.slot ∉ (s.claim c).waiters →
    (∀ j ∈ h.slot :: (s.claim c).waiters, (s.slot j).continueOnFault = false ∧
      ∃ st : Step, (s.slot j).currentStep = some st ∧ st.channel = c) →
    failStepsOn c why s = ((s.claim c).waiters.reverse ++ [h.slot]).foldl (fun u j => u.runFaulted j why)
      (s.setClaim c { holder := none, waiters := [] })) ∧
  ∀ (s : State) (i : SlotId) (st : Step) (why : FailReason), (s.slot i).currentStep = some st →
    (∀ (h : Holder) (u t : State), (s.claim st.channel).holder = some h → h.slot = i → i ∉ (s.claim st.channel).waiters →
      State.PassesOn st.channel (s.setClaim st.channel { s.claim st.channel with holder := none }) u → u.settles t i why →
      runDuty [.fail i why] s = t ∧
      ((s.claim st.channel).waiters = [] → failStepsOn st.channel why s = t)) ∧
    ∀ t : State, (∀ h : Holder, (s.claim st.channel).holder = some h → h.slot ≠ i) →
      (s.setClaim st.channel { s.claim st.channel with
        waiters := (s.claim st.channel).waiters.filter fun j => j ≠ i }).settles t i why →
      runDuty [.fail i why] s = t

/-- REHOME (R127) and FAULT_CLEAR (R128): refused with the translator's code, or STATE; otherwise the outlet enters HOMING with
a homing request, REHOME with ASSUMED_DRAW at the GRANT and GRANT, EFF_DEMAND 0 and the warm timer stopped (R22). -/
def Obligations.RehomeAndFaultClearEnterHoming : Prop :=
  ∀ (s : State) (f : Frame) (rest : List Frame), s.takes f rest → f.payload.length = 2 →
    (∀ st : Status, translate s.xlat (readWord f.payload 0) = .error st →
      (f.kind = 0x06 → exec .rehome s = .next (s.refused f rest st)) ∧
      (f.kind = 0x07 → exec .faultClear s = .next (s.refused f rest st))) ∧
    ∀ c : Channel, translate s.xlat (readWord f.payload 0) = .ok c →
      (f.kind = 0x06 →
        (s.isEligible c = false → exec .rehome s = .next (s.refused f rest .state)) ∧
        ∀ o : Outlet, s.outlet c = some o → o.state.eligible = true →
          exec .rehome s = .next ((requestHoming c ((s.dequeue rest).setOutlet c (some { o with
            state := .homing, assumedDraw := o.grant, grant := 0, effDemand := 0, warmTimer := none }))).answered f
              ⟨.done, [byte c.val]⟩)) ∧
      (f.kind = 0x07 →
        ((s.outlet c = none ∨ s.handedOff c = true ∨ ∃ o : Outlet, s.outlet c = some o ∧ o.state ≠ .faulted) →
          exec .faultClear s = .next (s.refused f rest .state)) ∧
        ∀ o : Outlet, s.outlet c = some o → o.state = .faulted → s.handedOff c = false →
          exec .faultClear s = .next ((requestHoming c ((s.dequeue rest).setOutlet c (some { o with state := .homing }))).answered
            f ⟨.done, [byte c.val]⟩))

/-! ### Demand Intake, SUPPLY and staleness -/

/-- DEMAND (R72 to R76): the items of a payload of 1 to 16 act in order, each on the state the one before it left, and each has
its own status in the reply, which is DONE. An item that fails a check of R73 changes nothing; an accepted one makes the record
CURRENT with the value clamped to RATED_KW and the timer at the pool's DEMAND_STALE_S, and changes nothing else. -/
def Obligations.DemandItemsActInOrder : Prop :=
  ∀ (s : State) (f : Frame) (rest : List Frame) (n : Nat), s.takes f rest → f.kind = 0x05 → 1 ≤ n → n ≤ 16 →
    f.payload.length = 4 * n →
    ∃ (codes : List Byte) (after : Nat → State), after 0 = s.dequeue rest ∧ codes.length = n ∧
      exec .demand s = .next ((after n).answered f ⟨.done, codes⟩) ∧
      ∀ k : Nat, k < n →
        (∀ st : Status, translate s.xlat (readWord f.payload (4 * k)) = .error st →
          codes[k]? = some st.code ∧ after (k + 1) = after k) ∧
        ∀ c : Channel, translate s.xlat (readWord f.payload (4 * k)) = .ok c →
          (s.outlet c = none → codes[k]? = some 0x09 ∧ after (k + 1) = after k) ∧
          ∀ o : Outlet, s.outlet c = some o →
            (o.feederOf ≠ none → codes[k]? = some 0x09 ∧ after (k + 1) = after k) ∧
            (o.feederOf = none → (o.bars.host = true ∨ o.bars.all = true) →
              codes[k]? = some 0x08 ∧ after (k + 1) = after k) ∧
            (o.feederOf = none → o.bars.host = false → o.bars.all = false →
              codes[k]? = some (if o.fixed.ratedKw < readWord f.payload (4 * k + 2) then 0x01 else 0x00) ∧
              after (k + 1) = (after k).setDemand c (.current (min (readWord f.payload (4 * k + 2)) o.fixed.ratedKw)
                (s.pool o.fixed.pool).settings.demandStaleS))

/-- The timers of the records: STALENESS_TIMER_EXPIRY (R78) and CAPACITY_STALENESS_EXPIRY (R35) mark the record or the declared
capacity stale with its value kept and raise STALE; WARM_TIMER_EXPIRY (R64) takes a WARMING outlet to SERVING and raises
nothing. The timer stops, and nothing else changes. A timer that runs or is stopped has not expired (the model's reading, log
2). -/
def Obligations.RecordTimersExpire : Prop :=
  ∀ s : State, s.rstLow = false →
    (∀ (c : Channel) (kw : Nat), s.demand c = .current kw 0 →
      exec (.stalenessTimerExpiry c) s = .next (raise .stale (s.setDemand c (.stale kw)))) ∧
    (∀ c : Channel, (∀ kw : Nat, s.demand c ≠ .current kw 0) → exec (.stalenessTimerExpiry c) s = .next s) ∧
    (s.pools.steamPart.capTimer = some 0 → exec .capacityStalenessExpiry s = .next (raise .stale { s with
      pools := { s.pools with steamPart := { s.pools.steamPart with capStale := true, capTimer := none } } })) ∧
    (s.pools.steamPart.capTimer ≠ some 0 → exec .capacityStalenessExpiry s = .next s) ∧
    (∀ (c : Channel) (o : Outlet), s.outlet c = some o → o.state = .warming → o.warmTimer = some 0 →
      exec (.warmTimerExpiry c) s = .next (s.setOutlet c (some { o with state := .serving, warmTimer := none }))) ∧
    ∀ c : Channel, (∀ o : Outlet, s.outlet c = some o → o.state ≠ .warming ∨ o.warmTimer ≠ some 0) →
      exec (.warmTimerExpiry c) s = .next s

/-- SUPPLY (R34): CD takes the value, clamped to 8000, CAP_STALE is cleared, the capacity staleness timer starts at CAP_STALE_S,
and nothing else changes. PROFILE_SWAP (R36): a bad pool is refused RANGE, a pending swap PENDING; otherwise SWAP_PENDING is set
and nothing else changes. -/
def Obligations.SupplyAndSwapWriteTheirFields : Prop :=
  ∀ (s : State) (f : Frame) (rest : List Frame), s.takes f rest →
    (f.kind = 0x0A → f.payload.length = 2 → exec .supply s = .next
      (({ s.dequeue rest with pools := { s.pools with steamPart := { s.pools.steamPart with
          cd := min (readWord f.payload 0) 8000, capStale := false,
          capTimer := some s.pools.steamPart.settings.capStaleS } } } : State).answered f
        ⟨if 8000 < readWord f.payload 0 then .doneClamped else .done, []⟩)) ∧
    (f.kind = 0x09 → f.payload.length = 1 →
      (3 ≤ readByte f.payload 0 → exec .profileSwap s = .next (s.refused f rest .range)) ∧
      ∀ p : Pool, poolOf (readByte f.payload 0) = some p →
        ((s.pool p).swapPending = true → exec .profileSwap s = .next (s.refused f rest .pending)) ∧
        ((s.pool p).swapPending = false → exec .profileSwap s = .next
          (((s.dequeue rest).setPool p { s.pool p with swapPending := true }).answered f ⟨.done, []⟩)))

/-! ### Supply Pools -/

/-- POOL_SET for STEAM (R27, R28, R30, R31): a bad pool or ENABLE is refused RANGE, and so is a clamped P_TRIP not below the
clamped P_LOW; otherwise all the settings are stored, clamped, and then an ENABLE that becomes YES runs a round, one that
becomes NO disables the pool, and with ENABLE as it was nothing else changes. -/
def Obligations.PoolSetStoresSteamSettings : Prop :=
  ∀ (s : State) (f : Frame) (rest : List Frame), s.takes f rest → f.kind = 0x08 → f.payload.length = 16 →
    ((3 ≤ readByte f.payload 0 ∨ (readByte f.payload 0 = 0 ∧ 2 ≤ readByte f.payload 1)) →
      exec .poolSet s = .next (s.refused f rest .range)) ∧
    ∀ (en : Bool) (raw set : PoolSettings) (rawX x : SteamSettings), readByte f.payload 0 = 0 → readByte f.payload 1 = en.toNat →
      raw = { enable := en, periodS := readByte f.payload 2, reservePct := readByte f.payload 3,
              demandStaleS := readWord f.payload 4, deadband := readByte f.payload 6 } →
      set = { enable := en, periodS := max 2 (min 60 raw.periodS), reservePct := min raw.reservePct 50,
              demandStaleS := max 10 (min 3600 raw.demandStaleS), deadband := max 5 (min 100 raw.deadband) } →
      rawX = { capStaleS := readWord f.payload 7, capFallbackPct := readByte f.payload 9, pLow := readWord f.payload 10,
               pTrip := readWord f.payload 12, pFaultFactor := readWord f.payload 14 } →
      x = { capStaleS := max 10 (min 3600 rawX.capStaleS), capFallbackPct := min rawX.capFallbackPct 100,
            pLow := min rawX.pLow 1600, pTrip := min rawX.pTrip 1600, pFaultFactor := min rawX.pFaultFactor 1000 } →
      (x.pLow ≤ x.pTrip → exec .poolSet s = .next (s.refused f rest .range)) ∧
      (x.pTrip < x.pLow → ∃ (t : State) (st : Status),
        t = { s.dequeue rest with pools := { s.pools with
          steam := { s.pools.steam with settings := set }, steamPart := { s.pools.steamPart with settings := x } } } ∧
        st = (if set = raw ∧ x = rawX then .done else .doneClamped) ∧
        (s.pools.steam.settings.enable = en → exec .poolSet s = .next (t.answered f ⟨st, []⟩)) ∧
        (s.pools.steam.settings.enable = false → en = true →
          exec .poolSet s = .next ((runRound .steam t).answered f ⟨st, []⟩)) ∧
        (s.pools.steam.settings.enable = true → en = false →
          exec .poolSet s = .next ((disablePool .steam t).answered f ⟨st, []⟩)))

/-- POOL_SET for HW1 and HW2 (R27 to R31): an unknown pool code, and an ENABLE that is neither YES nor NO for HW1 or HW2, is
refused RANGE; FEEDER is refused with the translator's code, or CONFLICT where the outlet is absent, of another pool, the other
pool's feeder, or newly designated while claimed; otherwise all the settings are stored, clamped; a feeder that changes is
released and the new one designated, each with FEEDER_DEMAND 0; and then the change of ENABLE acts. -/
def Obligations.PoolSetDesignatesFeeder : Prop :=
  (∀ (s : State) (f : Frame) (rest : List Frame), s.takes f rest → f.kind = 0x08 → f.payload.length = 14 →
    (3 ≤ readByte f.payload 0 ∨ ((readByte f.payload 0 = 1 ∨ readByte f.payload 0 = 2) ∧ 2 ≤ readByte f.payload 1)) →
    exec .poolSet s = .next (s.refused f rest .range)) ∧
  ∀ (s : State) (f : Frame) (rest : List Frame) (h other : HwPool) (en : Bool), s.takes f rest → f.kind = 0x08 →
    f.payload.length = 14 → poolOf (readByte f.payload 0) = some (.hw h) → readByte f.payload 1 = en.toNat → other ≠ h →
    (readWord f.payload 7 ≠ 0xFFFF →
      (∀ st : Status, translate s.xlat (readWord f.payload 7) = .error st →
        exec .poolSet s = .next (s.refused f rest st)) ∧
      ∀ c : Channel, translate s.xlat (readWord f.payload 7) = .ok c →
        (s.outlet c = none ∨ (∃ o : Outlet, s.outlet c = some o ∧ o.fixed.pool ≠ .steam) ∨
          (s.hwPart other).feeder = some c ∨ ((s.claim c).holder ≠ none ∧ (s.hwPart h).feeder ≠ some c)) →
        exec .poolSet s = .next (s.refused f rest .conflict)) ∧
    ∀ (new : Option Channel) (raw set : PoolSettings) (rawX x : HwPart),
      (readWord f.payload 7 = 0xFFFF ∧ new = none ∨
        readWord f.payload 7 ≠ 0xFFFF ∧ ∃ (c : Channel) (o : Outlet), new = some c ∧
          translate s.xlat (readWord f.payload 7) = .ok c ∧ s.outlet c = some o ∧ o.fixed.pool = .steam ∧
          (s.hwPart other).feeder ≠ some c ∧ ((s.claim c).holder = none ∨ (s.hwPart h).feeder = some c)) →
      raw = { enable := en, periodS := readByte f.payload 2, reservePct := readByte f.payload 3,
              demandStaleS := readWord f.payload 4, deadband := readByte f.payload 6 } →
      set = { enable := en, periodS := max 2 (min 60 raw.periodS), reservePct := min raw.reservePct 50,
              demandStaleS := max 10 (min 3600 raw.demandStaleS), deadband := max 5 (min 100 raw.deadband) } →
      rawX = { feeder := new, coilYieldPct := readByte f.payload 9, storeKw := readWord f.payload 10,
               storeTemp := readInt f.payload 12 } →
      x = { feeder := new, coilYieldPct := max 50 (min 100 rawX.coilYieldPct), storeKw := min rawX.storeKw 2000,
            storeTemp := max (-200) (min 2000 rawX.storeTemp) } →
      ∃ (t u v : State) (st : Status),
        t = ((s.dequeue rest).setPool (.hw h) { s.pool (.hw h) with settings := set }).setHwPart h x ∧
        ((s.hwPart h).feeder = new → u = t ∧ v = t) ∧
        ((s.hwPart h).feeder ≠ new →
          ((s.hwPart h).feeder = none → u = t) ∧
          (∀ a : Channel, (s.hwPart h).feeder = some a →
            u = t.modifyOutlet a fun o => { o with feederOf := none, feederDemand := 0 }) ∧
          (new = none → v = u) ∧
          (∀ c : Channel, new = some c → v = u.modifyOutlet c fun o => { o with feederOf := some h, feederDemand := 0 })) ∧
        st = (if set = raw ∧ x = rawX then .done else .doneClamped) ∧
        ((s.pool (.hw h)).settings.enable = en → exec .poolSet s = .next (v.answered f ⟨st, []⟩)) ∧
        ((s.pool (.hw h)).settings.enable = false → en = true →
          exec .poolSet s = .next ((runRound (.hw h) v).answered f ⟨st, []⟩)) ∧
        ((s.pool (.hw h)).settings.enable = true → en = false →
          exec .poolSet s = .next ((disablePool (.hw h) v).answered f ⟨st, []⟩))

/-- Disabling a pool (R31): its round timer stops, the four totals become 0 and the rest of its record stays; every outlet of
the pool has GRANT and EFF_DEMAND 0; each that was eligible enters IDLE with its warm timer stopped and is then given the target
0, in ascending channel order; the feeder of an HW pool has FEEDER_DEMAND 0. The other pools' records, the host demand records,
the curtailment state and the log are not changed, nor the STATE of any other outlet. What the targets set off in the same event
can do besides: a channel granted a slot with both limits active goes to FAULTED, and a queued homing so granted with CLIM
active alone completes (R103, R120, R121). An outlet that such an event has made ineligible is given no target (the model's
reading, log 12). -/
def Obligations.DisablingClearsGrants : Prop :=
  ∀ (p : Pool) (s t : State), t = disablePool p s →
    (∃ r : PoolRecord, t.pool p = r ∧ r = { s.pool p with
      roundTimer := none, totals := { sumE := 0, sumGrant := 0, eligibleCount := 0, curtailedCount := 0 } }) ∧
    (∀ q : Pool, q ≠ p → t.pool q = s.pool q) ∧ t.pools.steamPart = s.pools.steamPart ∧
    (∀ h : HwPool, t.hwPart h = s.hwPart h) ∧ t.demands = s.demands ∧ t.curtail = s.curtail ∧ t.log = s.log ∧
    (∀ (c : Channel) (o : Outlet), t.outlet c = some o → o.fixed.pool = p →
      o.grant = 0 ∧ o.effDemand = 0 ∧ o.state ≠ .warming ∧ o.state ≠ .serving ∧
      (s.isEligible c = true → o.state.eligible = true → (t.position c).target = some 0)) ∧
    (∀ (h : HwPool) (c : Channel) (o : Outlet), p = .hw h → (s.hwPart h).feeder = some c → t.outlet c = some o →
      o.feederDemand = 0) ∧
    (∀ closed : List Channel, closed.Pairwise (fun x y => x < y) →
      (∀ c : Channel, c ∈ closed ↔ ∃ o : Outlet, s.outlet c = some o ∧ o.fixed.pool = p ∧ o.state.eligible = true) →
      ∃ v : State, v = { s with outlets := v.outlets, pools := t.pools } ∧ (∀ c : Channel, s.outlet c = none → v.outlet c = none) ∧
        (∀ (c : Channel) (o x u : Outlet), s.outlet c = some o → (o.fixed.pool ≠ p → x = o) →
          (o.fixed.pool = p → o.state.eligible = false → x = { o with grant := 0, effDemand := 0 }) →
          (o.fixed.pool = p → o.state.eligible = true →
            x = { o with grant := 0, effDemand := 0, state := .idle, warmTimer := none }) →
          ((∃ h : HwPool, p = .hw h ∧ (s.hwPart h).feeder = some c) → u = { x with feederDemand := 0 }) →
          ((∀ h : HwPool, p = .hw h → (s.hwPart h).feeder ≠ some c) → u = x) → v.outlet c = some u) ∧
        t = closed.foldl (fun (x : State) c => if x.isEligible c = true then giveTarget c 0 x else x) v) ∧
    ∀ c : Channel, (s.outlet c = none → t.outlet c = none) ∧
      ∀ o : Outlet, s.outlet c = some o → ∃ u : Outlet, t.outlet c = some u ∧ u.fixed = o.fixed ∧ u.setA = o.setA ∧ u.setB = o.setB ∧ u.bars = o.bars ∧ u.feederOf = o.feederOf ∧
        (o.state.eligible = true → o.fixed.pool = p → u.warmTimer = none ∧ (u.state = .idle ∨ s.failsAtOnce c u)) ∧
        (o.state.eligible = true → o.fixed.pool ≠ p → u.state = o.state ∨ s.failsAtOnce c u) ∧
        ((o.state = .held ∨ o.state = .faulted) → u.state = o.state) ∧
        (o.state = .locked → u.state = .locked ∨ s.failsAtOnce c u) ∧
        (o.state = .homing → u.state = .homing ∨ s.homesAtOnce c u ∨ s.failsAtOnce c u) ∧
        ((o.state.eligible = false ∨ o.fixed.pool ≠ p) → c ∉ s.drive.closing → c ∉ s.drive.opening → u.state = o.state) ∧
        (s.climActive c = false → u.assumedDraw = o.assumedDraw ∧ u.recovery = o.recovery)

/-- What a round computes from its inputs. The capacity figures (R38 to R43): the base of STEAM is CD, or its fallback share
while stale; that of an HW pool is the coil yield of an eligible feeder's GRANT plus the storage allowance; the factor K follows
the header pressure; H is the sum of the assumed draws, limited to 8000; and C is the base less the reserve, scaled by K, less
H, within 0 to 8000. The demand stage: the participants are the pool's outlets in IDLE, WARMING and SERVING, in ascending
channel order (R47); the raw demand D is that of the claim, of the feeder, of the current or stale host demand, or 0 (R51); the
class is the claiming step's or the active set's (R52); and E is the least of D, MAX_KW and RATED_KW, and of WARM_KW for a
warm-limited outlet, with the floor used FU at most E (R53). -/
def Obligations.CapacityFollowsInputs : Prop :=
  (∀ (s : State) (p : Pool), (participants p s).Pairwise (fun a b => a.ch < b.ch) ∧
    (∀ c : Channel, (∃ q ∈ participants p s, q.ch = c) ↔
      ∃ o : Outlet, s.outlet c = some o ∧ o.fixed.pool = p ∧ (o.state = .idle ∨ o.state = .warming ∨ o.state = .serving)) ∧
    ∀ (q : Part) (o : Outlet) (x : Profile) (d : Nat), q ∈ participants p s → s.outlet q.ch = some o →
      ((s.pool p).activeBank = .a → x = o.setA) → ((s.pool p).activeBank = .b → x = o.setB) →
      (∀ h : Holder, (s.claim q.ch).holder = some h → d = h.kw) →
      ((s.claim q.ch).holder = none → o.feederOf ≠ none → d = o.feederDemand) →
      ((s.claim q.ch).holder = none → o.feederOf = none →
        (∀ kw n : Nat, s.demand q.ch = .current kw n → d = kw) ∧
        (∀ kw : Nat, s.demand q.ch = .stale kw → d = o.fixed.fallbackKw) ∧ (s.demand q.ch = .absent → d = 0)) →
      (o.fixed.pool = .steam → (o.state = .idle ∨ o.state = .warming) → 0 < x.warmKw →
        q.e = min (min d (min x.maxKw o.fixed.ratedKw)) x.warmKw) ∧
      ((o.fixed.pool ≠ .steam ∨ o.state = .serving ∨ x.warmKw = 0) → q.e = min d (min x.maxKw o.fixed.ratedKw)) ∧
      q.fu = min x.floorKw q.e ∧ q.weight = x.weight ∧ ((s.claim q.ch).holder = none → q.cls = x.cls) ∧
      ∀ (h : Holder) (st : Step), (s.claim q.ch).holder = some h → (s.slot h.slot).steps[h.step - 1]? = some st →
        q.cls = st.cls) ∧
  ∀ s : State,
    (∀ p : Pool, (capacity p s).c = min 8000
        ((capacity p s).b * (100 - (s.pool p).settings.reservePct) / 100 * (capacity p s).k / 1000 - (capacity p s).h) ∧
      (capacity p s).h = min 8000 (∑ c : Channel, match s.outlet c with
        | some o => if o.fixed.pool = p then o.assumedDraw else 0
        | none => 0)) ∧
    ((s.pools.steamPart.capStale = false → (capacity .steam s).b = s.pools.steamPart.cd) ∧
      (s.pools.steamPart.capStale = true →
        (capacity .steam s).b = s.pools.steamPart.cd * s.pools.steamPart.settings.capFallbackPct / 100) ∧
      (capacity .steam s).a = 0) ∧
    ((s.sensor 48).faulted = true → (capacity .steam s).k = s.pools.steamPart.settings.pFaultFactor) ∧
    ((s.sensor 48).faulted = false → ∀ (press low trip : Int), press = (s.sensor 48).lastGood →
      low = s.pools.steamPart.settings.pLow → trip = s.pools.steamPart.settings.pTrip → trip < low →
        (low ≤ press → (capacity .steam s).k = 1000) ∧
        (press ≤ trip → (capacity .steam s).k = 0) ∧
        (trip < press → press < low → ((capacity .steam s).k : Int) = (press - trip) * 1000 / (low - trip))) ∧
    ∀ (h : HwPool) (store : Sensor), (h = .hw1 → store = s.sensor 49) → (h = .hw2 → store = s.sensor 50) →
      (capacity (.hw h) s).k = 1000 ∧
      (capacity (.hw h) s).a =
        (if store.faulted = false ∧ (s.hwPart h).storeTemp ≤ store.lastGood then (s.hwPart h).storeKw else 0) ∧
      ((s.hwPart h).feeder = none → (capacity (.hw h) s).b = (capacity (.hw h) s).a) ∧
      ∀ c : Channel, (s.hwPart h).feeder = some c →
        (s.isEligible c = false → (capacity (.hw h) s).b = (capacity (.hw h) s).a) ∧
        ∀ o : Outlet, s.outlet c = some o → o.state.eligible = true →
          (capacity (.hw h) s).b = o.grant * (s.hwPart h).coilYieldPct / 100 + (capacity (.hw h) s).a

/-! ### The allocation round -/

/-- ROUND_TIMER_EXPIRY (R32, R47): a round timer that has run out runs a round of its pool, and one that runs or is stopped has
not expired (the model's reading, log 2). REBALANCE (R33): a bad pool is refused RANGE and a disabled one STATE; otherwise a
round runs and the reply carries LAST_C and SUM_GRANT as it left them. -/
def Obligations.RoundsRunOnTimerAndRebalance : Prop :=
  (∀ (s : State) (p : Pool), s.rstLow = false →
    ((s.pool p).roundTimer = some 0 → exec (.roundTimerExpiry p) s = .next (runRound p s)) ∧
    ((s.pool p).roundTimer ≠ some 0 → exec (.roundTimerExpiry p) s = .next s)) ∧
  ∀ (s : State) (f : Frame) (rest : List Frame), s.takes f rest → f.kind = 0x0B → f.payload.length = 1 →
    (3 ≤ readByte f.payload 0 → exec .rebalance s = .next (s.refused f rest .range)) ∧
    ∀ p : Pool, poolOf (readByte f.payload 0) = some p →
      ((s.pool p).settings.enable = false → exec .rebalance s = .next (s.refused f rest .state)) ∧
      ((s.pool p).settings.enable = true → ∃ t : State, t = runRound p (s.dequeue rest) ∧
        exec .rebalance s = .next (t.answered f ⟨.done, be16 (t.pool p).figures.c ++ be16 (t.pool p).totals.sumGrant⟩))

/-- A round, whole (R47 to R50, R59 to R62, R65, R66). In the pool record: the timer at PERIOD_S, ROUND_COUNT one higher, a
pending swap applied, the capacity figures of the state the round began with, and the totals of its grants, SUM_GRANT at most C
and at most SUM_E. Each participant has the GRANT and EFF_DEMAND that the allocation gives it, STATE and warm timer by R61 and
R62, and the target of its grant, unless an event that the round's targets set off has taken it to FAULTED (the model's reading,
log 12), which only both limits active can do. The results go to the monitor in ascending channel order, each with the grant
allocated, also for an outlet so faulted (the model's choice, log 28), and the feeder of an HW pool has the FEEDER_DEMAND of the
E's and of A. No other outlet's grant, sets, bars or feeder field changes but by such a fault, nor the settings, the other
pools' records, the host demand records, the clock or the sensors. -/
def Obligations.RoundWritesPoolRecord : Prop :=
  ∀ (p : Pool) (s t : State), t = runRound p s →
    (t.pool p).settings = (s.pool p).settings ∧ (t.pool p).roundTimer = some (s.pool p).settings.periodS ∧
    (t.pool p).roundCount = ((s.pool p).roundCount + 1) % 65536 ∧ (t.pool p).swapPending = false ∧
    ((t.pool p).activeBank = (s.pool p).activeBank ↔ (s.pool p).swapPending = false) ∧
    (t.pool p).figures = capacity p s ∧ (t.pool p).totals.sumGrant ≤ (t.pool p).figures.c ∧
    (t.pool p).totals.sumGrant ≤ (t.pool p).totals.sumE ∧
    (t.pool p).totals.curtailedCount ≤ (t.pool p).totals.eligibleCount ∧ (t.pool p).totals.eligibleCount ≤ 48 ∧
    (∀ q : Pool, q ≠ p → t.pool q = s.pool q) ∧ t.pools.steamPart = s.pools.steamPart ∧
    (∀ h : HwPool, t.hwPart h = s.hwPart h) ∧ t.demands = s.demands ∧ t.clock = s.clock ∧ t.sensors = s.sensors ∧
    (t.isPending .profile = (s.isPending .profile || (s.pool p).swapPending)) ∧
    ∀ (bank : ProfileBank) (v : State) (qs : List Part), (bank = (s.pool p).activeBank ↔ (s.pool p).swapPending = false) →
      v = s.setPool p { s.pool p with activeBank := bank } → qs = allocate (capacity p s).c (participants p v) →
      (t.pool p).activeBank = bank ∧
      (t.pool p).totals = { sumE := total (fun q => q.e) qs, sumGrant := total (fun q => q.g) qs, eligibleCount := qs.length,
                            curtailedCount := (qs.filter fun q => decide (q.g < q.e)).length } ∧
      qs.map (fun q => q.ch) = (participants p v).map (fun q => q.ch) ∧
      (∀ (q : Part) (o : Outlet) (warmKw : Nat), q ∈ qs → s.outlet q.ch = some o → warmKw = (v.activeProfile o).warmKw →
        ∃ u : Outlet, t.outlet q.ch = some u ∧ u.fixed = o.fixed ∧
          ((s.climActive q.ch = false ∨ s.olimActive q.ch = false) → u.state.eligible = true) ∧
          (u.state.eligible = true → u.grant = q.g ∧ u.effDemand = q.e ∧ u.state = (afterGrant q.g warmKw o).state ∧
            u.warmTimer = (afterGrant q.g warmKw o).warmTimer ∧
            ((s.position q.ch).homeReq = false → (t.position q.ch).target = some (targetOf q.g o.fixed.ratedKw))) ∧
          (u.state.eligible = false → u.state = .faulted ∧ u.lastFault = some .bothLimits ∧ u.assumedDraw = q.g ∧ u.grant = 0 ∧
            u.effDemand = 0)) ∧
      (∀ x : State, x = qs.foldl (fun x q => takeResult
          { channel := q.ch, pool := p, cls := q.cls, e := q.e, fu := q.fu, grant := q.g } x) v →
        t.curtail = x.curtail ∧ t.log = x.log) ∧
      (∀ (h : HwPool) (c : Channel) (o : Outlet), p = .hw h → (s.hwPart h).feeder = some c → s.outlet c = some o →
        ∃ u : Outlet, t.outlet c = some u ∧ u.feederDemand =
          feederDemandOf (total (fun q => q.e) qs) (capacity p s).a (s.hwPart h).coilYieldPct o.fixed.ratedKw) ∧
      ∀ c : Channel, (s.outlet c = none → t.outlet c = none) ∧
        ∀ o : Outlet, s.outlet c = some o → ∃ u : Outlet, t.outlet c = some u ∧ u.fixed = o.fixed ∧ u.setA = o.setA ∧
          u.setB = o.setB ∧ u.bars = o.bars ∧ u.feederOf = o.feederOf ∧
          ((∀ h : HwPool, p = .hw h → (s.hwPart h).feeder ≠ some c) → u.feederDemand = o.feederDemand) ∧
          ((∀ q ∈ qs, q.ch ≠ c) → (s.climActive c = false ∨ s.olimActive c = false) →
            u.grant = o.grant ∧ u.effDemand = o.effDemand)

/-- The three laws of a round (R59), for any participants that the demand stage can form: the grants of a round add up to at
most C; no grant exceeds E; and below a class with a curtailed outlet no outlet receives more than its floor used. Channel,
class, weight, E and FU of each participant come out as they went in. -/
def Obligations.AllocationKeepsThreeLaws : Prop :=
  ∀ (capacity : Nat) (ps qs : List Part), ps.Pairwise (fun a b => a.ch < b.ch) → (∀ p ∈ ps, p.fu ≤ p.e) →
    qs = allocate capacity ps →
    qs.map (fun q => (q.ch, q.cls, q.weight, q.e, q.fu)) = ps.map (fun p => (p.ch, p.cls, p.weight, p.e, p.fu)) ∧
    total (fun q => q.g) qs ≤ capacity ∧ (∀ q ∈ qs, q.g ≤ q.e) ∧
    ∀ (i j : Nat) (a b : Part), a ∈ qs → b ∈ qs → classOrder[i]? = some a.cls → classOrder[j]? = some b.cls → i < j →
      a.g < a.e → b.g ≤ b.fu

/-- A round gives out all that is asked for and available (R55, R56, R58, R67, R68): the grants of participants with a weight of
at least 1 add up to exactly the lesser of C and the sum of E; so with C 0 every grant is 0, and with C at least the sum of E
every grant is E. -/
def Obligations.AllocationSharesAllOfCapacity : Prop :=
  ∀ (capacity : Nat) (ps qs : List Part), ps.Pairwise (fun a b => a.ch < b.ch) → (∀ p ∈ ps, p.fu ≤ p.e) →
    (∀ p ∈ ps, 1 ≤ p.weight) → qs = allocate capacity ps →
    total (fun q => q.g) qs = min capacity (total (fun p => p.e) ps) ∧
    (capacity = 0 → ∀ q ∈ qs, q.g = 0) ∧ (total (fun p => p.e) ps ≤ capacity → ∀ q ∈ qs, q.g = q.e)

/-- What a round writes for each participant (R59 to R62, R66): GRANT and EFF_DEMAND; STATE and warm timer by the tables of R61
and R62, with every other outlet as it was; the target of a grant, which lies in 0 to 1000, is 0 for 0 and 1000 for RATED_KW,
and rounds half up, given to the Drive Unit in ascending channel order once every record is written, but not to an outlet that
an earlier target's event has made ineligible (the model's reading, log 12); and the feeder demand of a shortfall, which rounds
up and is limited to RATED_KW, written to the feeder of an HW pool and to no other outlet. -/
def Obligations.GrantsSetStatesAndTargets : Prop :=
  (∀ (s : State) (ps : List Part), ps.Pairwise (fun a b => a.ch < b.ch) →
    (∀ q ∈ ps, ∀ o : Outlet, s.outlet q.ch = some o →
      (ps.foldl grantOutlet s).outlet q.ch = some { afterGrant q.g (s.activeProfile o).warmKw o with
        grant := q.g, effDemand := q.e }) ∧
    ∀ c : Channel, (∀ q ∈ ps, q.ch ≠ c) → (ps.foldl grantOutlet s).outlet c = s.outlet c) ∧
  (∀ (g warmKw : Nat) (o : Outlet),
    (g = 0 → afterGrant g warmKw o = { o with state := .idle, warmTimer := none }) ∧
    (0 < g → o.state = .idle → o.fixed.pool = .steam → 0 < warmKw → afterGrant g warmKw o =
      { o with state := .warming, warmTimer := if o.fixed.warmMaxS = 0 then none else some o.fixed.warmMaxS }) ∧
    (0 < g → o.state = .idle → (o.fixed.pool ≠ .steam ∨ warmKw = 0) → afterGrant g warmKw o = { o with state := .serving }) ∧
    (0 < g → o.state = .warming → 0 < warmKw → afterGrant g warmKw o = o) ∧
    (0 < g → o.state = .warming → warmKw = 0 → afterGrant g warmKw o = { o with state := .serving, warmTimer := none }) ∧
    (0 < g → o.state = .serving → afterGrant g warmKw o = o)) ∧
  (∀ g rated : Nat, 0 < rated → g ≤ rated →
    targetOf g rated ≤ 1000 ∧ (g = 0 → targetOf g rated = 0) ∧ (g = rated → targetOf g rated = 1000) ∧
    2 * g * 1000 < (2 * targetOf g rated + 1) * rated ∧ 2 * targetOf g rated * rated ≤ 2 * g * 1000 + rated) ∧
  (∀ (p : Pool) (s : State) (ps : List Part),
    targetStage p ps s = ps.foldl (fun (x : State) q => match x.outlet q.ch with
        | some o => if o.state.eligible = true then giveTarget q.ch (targetOf q.g o.fixed.ratedKw) x else x
        | none => x)
      ((ps.foldl grantOutlet s).setPool p { (ps.foldl grantOutlet s).pool p with
        totals := { sumE := total (fun q => q.e) ps, sumGrant := total (fun q => q.g) ps, eligibleCount := ps.length,
                    curtailedCount := (ps.filter fun q => decide (q.g < q.e)).length } })) ∧
  (∀ (p : Pool) (s : State) (ps : List Part) (a : Nat),
    (p = .steam → feederStage p ps a s = s) ∧
    ∀ h : HwPool, p = .hw h →
      ((s.hwPart h).feeder = none → feederStage p ps a s = s) ∧
      ∀ (c : Channel) (o : Outlet), (s.hwPart h).feeder = some c → s.outlet c = some o →
        feederStage p ps a s = s.setOutlet c (some { o with
          feederDemand := feederDemandOf (total (fun q => q.e) ps) a (s.hwPart h).coilYieldPct o.fixed.ratedKw })) ∧
  ∀ se a yieldPct rated : Nat, 0 < yieldPct →
    (se ≤ a → feederDemandOf se a yieldPct rated = 0) ∧
    (a < se → ∃ n : Nat, feederDemandOf se a yieldPct rated = min rated n ∧
      (se - a) * 100 ≤ n * yieldPct ∧ n * yieldPct < (se - a) * 100 + yieldPct)

/-! ### Curtailment -/

/-- The monitor acts on a result (R86 to R91): the tolerance counter moves by the table of R87 and FLOOR_CUT by that of R88,
each entry they call for is written with the plant time and the result's values, a full log loses its oldest entries and sets
LOST, LOGLOSS is raised at each write that discards and then CURTAIL at each write, so that each that is neither pending nor
masked makes one NOTICE frame ready in that order (R91, R183), and nothing else changes. -/
def Obligations.ResultMovesCounterAndFlag : Prop :=
  ∀ (s t : State) (r : RoundResult) (o : Outlet), s.outlet r.channel = some o → r.grant ≤ r.e → r.fu ≤ r.e → s.logBounded →
    t = takeResult r s →
    ∃ (count reload n : Nat) (kinds : List LogKind) (cut : List LogKind) (entry : LogKind → LogEntry)
      (raises : List NoticeKind),
      count = (s.curtailment r.channel).counter ∧ reload = (s.activeProfile o).tolerance ∧
      (r.e = 0 → n = reload ∧ kinds = []) ∧
      (r.grant < r.e → 2 ≤ count → n = count - 1 ∧ kinds = []) ∧
      (r.grant < r.e → count = 1 → n = 0 ∧ kinds = [.curtailed]) ∧
      (r.grant < r.e → count = 0 → n = 0 ∧ kinds = []) ∧
      (0 < r.e → r.grant = r.e → 1 ≤ count → n = reload ∧ kinds = []) ∧
      (0 < r.e → r.grant = r.e → count = 0 → n = reload ∧ kinds = [.restored]) ∧
      cut = (if r.grant < r.fu ∧ (s.curtailment r.channel).floorCut = false then [.floorCut] else []) ∧
      (∀ k : LogKind, entry k =
        { minute := s.clock.minute, second := s.clock.second, channel := r.channel, pool := r.pool, cls := r.cls, kind := k,
          e := r.e, grant := r.grant }) ∧
      t.log.entries = (s.log.entries ++ (kinds ++ cut).map entry).drop
        (s.log.entries.length + (kinds ++ cut).length - 32) ∧
      t.log.lost = (s.log.lost || decide (32 < s.log.entries.length + (kinds ++ cut).length)) ∧
      t.isPending .curtail = (s.isPending .curtail || decide (kinds ++ cut ≠ [])) ∧
      t.isPending .logLoss = (s.isPending .logLoss || decide (32 < s.log.entries.length + (kinds ++ cut).length)) ∧
      (∀ k : NoticeKind, k ≠ .curtail → k ≠ .logLoss → t.isPending k = s.isPending k) ∧
      raises = (List.range (kinds ++ cut).length).flatMap (fun i =>
        if 32 ≤ s.log.entries.length + i then [.logLoss, .curtail] else [.curtail]) ∧
      t = { s with
        curtail := s.curtail.set r.channel { counter := n, floorCut := decide (r.grant < r.fu) },
        log := t.log, link := (raises.foldl (fun x k => raise k x) s).link }

/-- READ_LOG (R92): the oldest entries, up to 8, leave the log and go into the reply, oldest first, behind LOST as it stood, the
number of entries left and the number returned; LOST is cleared, and nothing else changes. -/
def Obligations.ReadLogTakesOldestEntries : Prop :=
  ∀ (s : State) (f : Frame) (rest : List Frame), s.takes f rest → f.kind = 0x16 → f.payload = [] →
    ∃ (taken left : List LogEntry) (data : List Byte), s.log.entries = taken ++ left ∧
      taken.length = min 8 s.log.entries.length ∧
      exec .readLog s = .next
        (({ s.dequeue rest with log := { entries := left, lost := false } } : State).answered f ⟨.done, data⟩) ∧
      data = [if s.log.lost = true then 1 else 0, byte left.length, byte taken.length] ++ taken.flatMap fun x =>
        be16 x.minute ++ [byte x.second, byte x.channel.val, poolCode x.pool, x.cls.code, x.kind.code] ++ be16 x.e
          ++ be16 x.grant

/-! ### Drive Unit -/

/-- MOVE_TIMER_EXPIRY (R105, R107, R108): a move timer that has run out ends the move: NO_CLOSED_LIMIT for a TO_CLOSED or HOMING
move, NO_OPEN_LIMIT for a TO_OPEN one; an INTERMEDIATE one reports BOTH_LIMITS with both limits active, STUCK with its check
timer running and CLIM active, and otherwise completes at TARGET with KNOWN as it was. CHECK_TIMER_EXPIRY (R108): STUCK with
CLIM still active. PAUSE_TIMER_EXPIRY (R111): the pause ends, and the arbiter runs if the channel is queued. A timer that runs
or is stopped has not expired (the model's reading, log 2). -/
def Obligations.MotionTimersExpire : Prop :=
  ∀ (s : State) (c : Channel), s.rstLow = false →
    ((s.position c).move = none → exec (.moveTimerExpiry c) s = .next s ∧ exec (.checkTimerExpiry c) s = .next s) ∧
    (∀ m : Move, (s.position c).move = some m →
      (m.timer ≠ 0 → exec (.moveTimerExpiry c) s = .next s) ∧
      (m.timer = 0 → (m.kind = .toClosed ∨ m.kind = .homing) →
        exec (.moveTimerExpiry c) s = .next (faultStop runArbiter true c .noClosedLimit s)) ∧
      (m.timer = 0 → m.kind = .toOpen →
        exec (.moveTimerExpiry c) s = .next (faultStop runArbiter true c .noOpenLimit s)) ∧
      (m.timer = 0 → m.kind = .intermediate →
        (s.olimActive c = true → s.climActive c = true →
          exec (.moveTimerExpiry c) s = .next (faultStop runArbiter true c .bothLimits s)) ∧
        (s.olimActive c = false → s.climActive c = true → m.check ≠ none →
          exec (.moveTimerExpiry c) s = .next (faultStop runArbiter true c .stuck s)) ∧
        (∀ t : Nat, (s.climActive c = false ∨ (s.olimActive c = false ∧ m.check = none)) → (s.position c).target = some t →
          exec (.moveTimerExpiry c) s = .next (completeMove runArbiter m t (s.position c).known c s))) ∧
      (m.check ≠ some 0 → exec (.checkTimerExpiry c) s = .next s) ∧
      (m.check = some 0 → s.climActive c = true →
        exec (.checkTimerExpiry c) s = .next (faultStop runArbiter true c .stuck s)) ∧
      (m.check = some 0 → s.climActive c = false → exec (.checkTimerExpiry c) s =
        .next (s.setPosition c { s.position c with move := some { m with check := none } }))) ∧
    ((s.position c).pause ≠ some 0 → exec (.pauseTimerExpiry c) s = .next s) ∧
    ((s.position c).pause = some 0 → ∃ t : State, t = s.setPosition c { s.position c with pause := none } ∧
      exec (.pauseTimerExpiry c) s =
        .next (if c ∈ s.drive.closing ∨ c ∈ s.drive.opening then runArbiter t else t))

/-- LIMIT_EVENT (R105, R106, R108, R122): a level the line already has is no event (the model's reading, log 17). During a move,
both limits active is a BOTH_LIMITS fault, CLIM made while closing completes at 0 and OLIM made while opening completes at 1000,
each with KNOWN YES, CLIM lost while opening stops the check timer, and any other change has no effect. At a still channel of a
present outlet, both limits active is a BOTH_LIMITS fault unless the outlet is FAULTED or handed off, and otherwise the need is
decided anew. -/
def Obligations.LimitEventsActOnMoves : Prop :=
  ∀ (s : State) (c : Channel) (line : LimitLine) (active : Bool), s.rstLow = false →
    ((line = .clim → s.climActive c = active) → (line = .olim → s.olimActive c = active) →
      exec (.limitEvent c line active) s = .next s) ∧
    ((line = .clim → s.climActive c = !active) → (line = .olim → s.olimActive c = !active) →
      ∃ t : State,
        (line = .clim → t = { s with drive := { s.drive with clim := s.drive.clim.set c active } }) ∧
        (line = .olim → t = { s with drive := { s.drive with olim := s.drive.olim.set c active } }) ∧
        (∀ m : Move, (s.position c).move = some m →
          (t.olimActive c = true → t.climActive c = true →
            exec (.limitEvent c line active) s = .next (faultStop runArbiter true c .bothLimits t)) ∧
          ((t.olimActive c = false ∨ t.climActive c = false) →
            (m.dir = .closing → line = .clim → active = true →
              exec (.limitEvent c line active) s = .next (completeMove runArbiter m 0 true c t)) ∧
            (m.dir = .opening → line = .olim → active = true →
              exec (.limitEvent c line active) s = .next (completeMove runArbiter m 1000 true c t)) ∧
            (m.dir = .opening → line = .clim → active = false → exec (.limitEvent c line active) s =
              .next (t.setPosition c { s.position c with move := some { m with check := none } })) ∧
            ((m.dir = .closing ∧ line = .olim) ∨ (m.dir = .closing ∧ active = false) ∨ (m.dir = .opening ∧ line = .clim ∧
                active = true) ∨ (m.dir = .opening ∧ line = .olim ∧ active = false) →
              exec (.limitEvent c line active) s = .next t))) ∧
        ((s.position c).move = none →
          (s.outlet c = none → exec (.limitEvent c line active) s = .next t) ∧
          ∀ o : Outlet, s.outlet c = some o →
            (t.olimActive c = true → t.climActive c = true → o.state ≠ .faulted → s.handedOff c = false →
              exec (.limitEvent c line active) s = .next (faultStop runArbiter false c .bothLimits t)) ∧
            ((t.olimActive c = false ∨ t.climActive c = false ∨ o.state = .faulted ∨ s.handedOff c = true) →
              exec (.limitEvent c line active) s = .next (applyNeed runArbiter c t))))

/-- A fault stop and its report (R116, R121, R122, R123, R20), where the channel holds no drive slot or no other channel that
waits for one may be granted it: the channel's own entry, if it has one, leaves the motion queue and the others keep their
places; EST is that of the one limit active, or the estimate of R109 for a driving channel; TRAVEL grows by the distance driven;
every other field of the channel's record is cleared; LAST_FAULT is set and TRAVEL raised; an eligible outlet without recovery,
a HOMING one and a LOCKED one become FAULTED, the first with ASSUMED_DRAW at its GRANT, and the steps on the outlet then fail
with TRAVEL (R152), with none there nothing more happens; an eligible outlet with AUTO_RECOVER and another fault than
BOTH_LIMITS is re-homed with RECOVERY SET and its steps stand (R124). Nothing else changes. -/
def Obligations.FaultStopReportsFault : Prop :=
  ∀ (s : State) (c : Channel) (k : FaultKind) (held : Bool) (o : Outlet) (p q : Position) (driven : Nat)
    (r : State), (held = false ∨ ∀ x ∈ s.drive.closing ++ s.drive.opening, x = c ∨ s.passedOver x) → s.outlet c = some o →
    p = s.position c → (p.move = none → driven = 0) → (∀ m : Move, p.move = some m → driven = m.elapsed / m.stroke) →
    (s.climActive c = true → s.olimActive c = false → q.est = 0) →
    (s.climActive c = false → s.olimActive c = true → q.est = 1000) →
    (s.climActive c = s.olimActive c → p.move = none → q.est = p.est) →
    (∀ m : Move, s.climActive c = s.olimActive c → p.move = some m →
      (m.dir = .closing → q.est = p.est - driven) ∧ (m.dir = .opening → q.est = min 1000 (p.est + driven))) →
    q.known = false → q.target = none → q.move = none → q.homeReq = false → q.pause = none →
    q.travel = min 65535 (p.travel + driven) → q.drift = (p.drift || decide (4000 ≤ q.travel)) →
    r = (s.setPosition c q).withQueue (s.drive.closing.filter fun x => x ≠ c) (s.drive.opening.filter fun x => x ≠ c) →
    (∀ u : Outlet, (o.state.eligible = true → (o.fixed.autoRecover = false ∨ k = .bothLimits) → u = { o with
          state := .faulted, assumedDraw := o.grant, grant := 0, effDemand := 0, warmTimer := none, lastFault := some k }) →
      (o.state = .homing → u = { o with state := .faulted, recovery := false, lastFault := some k }) →
      (o.state = .locked → u = { o with state := .faulted, lastFault := some k }) →
      (o.state = .homing ∨ o.state = .locked ∨
        o.state.eligible = true ∧ (o.fixed.autoRecover = false ∨ k = .bothLimits)) →
      faultStop runArbiter held c k s = failStepsOn c .travel (raise .travel (r.setOutlet c (some u))) ∧
      (s.claim c = { holder := none, waiters := [] } →
        faultStop runArbiter held c k s = raise .travel (r.setOutlet c (some u)))) ∧
    (o.state.eligible = true → o.fixed.autoRecover = true → k ≠ .bothLimits → faultStop runArbiter held c k s =
      requestHoming c (raise .travel (r.setOutlet c (some { o with
        state := .homing, assumedDraw := o.grant, grant := 0, effDemand := 0, warmTimer := none, recovery := true,
        lastFault := some k }))))

/-- The completion of a move (R104, R112, R114, R120), where no other channel waits for the slot: EST and KNOWN are those of the
ending rule, TRAVEL grows by the distance driven, and the channel stands still. A need left in the opposite direction pauses for
2 s and joins its tier, and one left in the same direction joins its tier at once, which runs the arbiter. A homing sets EST,
TRAVEL and DRIFT to 0 and KNOWN to YES, a requested one gives TARGET 0, a drift homing keeps the target stored meanwhile, whose
opening need pauses for 2 s and joins its tier, and the outlet has ASSUMED_DRAW 0 and RECOVERY CLEAR and goes from HOMING to
IDLE, or to LOCKED under BAR_ALL. -/
def Obligations.CompletedMoveComesToRest : Prop :=
  ∀ (s : State) (c : Channel) (o : Outlet) (m : Move) (est : Nat) (known : Bool) (p q : Position),
    s.drive.closing = [] → s.drive.opening = [] → s.outlet c = some o → p = s.position c → p.move = some m →
    (m.kind ≠ .homing → ∀ travel : Nat, travel = min 65535 (p.travel + m.elapsed / m.stroke) →
      q = { p with est := est, known := known, move := none, travel := travel,
                   drift := p.drift || decide (4000 ≤ travel) } →
      (moveNeed c (s.setPosition c q) = none → completeMove runArbiter m est known c s = s.setPosition c q) ∧
      ∀ d : MoveDir, moveNeed c (s.setPosition c q) = some d → d ≠ m.dir → s.handedOff c = false →
        completeMove runArbiter m est known c s = { s.setPosition c { q with pause := some 2000 } with
          drive := { (s.setPosition c { q with pause := some 2000 }).drive with
            closing := if d = .closing then [c] else [], opening := if d = .opening then [c] else [] } }) ∧
    (m.kind ≠ .homing → ∀ travel deadband : Nat, travel = min 65535 (p.travel + m.elapsed / m.stroke) →
      deadband = (s.pool o.fixed.pool).settings.deadband →
      q = { p with est := est, known := known, move := none, travel := travel,
                   drift := p.drift || decide (4000 ≤ travel) } →
      ∀ t : Nat, p.homeReq = false → p.target = some t → t ≤ 1000 → est ≤ 1000 →
        (needIs none t est deadband (s.olimActive c) (s.climActive c) →
          completeMove runArbiter m est known c s = s.setPosition c q) ∧
        (needIs (some m.dir) t est deadband (s.olimActive c) (s.climActive c) → s.handedOff c = false →
          completeMove runArbiter m est known c s = runArbiter ((s.setPosition c q).withQueue
            (if m.dir = .closing then [c] else []) (if m.dir = .opening then [c] else [])))) ∧
    (m.kind = .homing → m.dir = .closing → p.homeReq = false → ∀ (t deadband : Nat) (u : Outlet), p.target = some t → t ≠ 0 →
      deadband = (s.pool o.fixed.pool).settings.deadband →
      q = { p with est := 0, known := true, move := none, travel := 0, drift := false } →
      u = { o with assumedDraw := 0, recovery := false,
                   state := if o.state = .homing then (if o.bars.all = true then .locked else .idle) else o.state } →
      (needIs none t 0 deadband (s.olimActive c) (s.climActive c) →
        completeMove runArbiter m est known c s = (s.setPosition c q).setOutlet c (some u)) ∧
      (needIs (some .opening) t 0 deadband (s.olimActive c) (s.climActive c) → s.handedOff c = false →
        completeMove runArbiter m est known c s =
          ((s.setPosition c { q with pause := some 2000 }).setOutlet c (some u)).withQueue [] [c])) ∧
    (m.kind = .homing → s.climActive c = true → (p.homeReq = true ∨ p.target = some 0 ∨ p.target = none) →
      q = { est := 0, known := true, target := if p.homeReq = true then some 0 else p.target, move := none, homeReq := false,
            travel := 0, drift := false, pause := p.pause } →
      completeMove runArbiter m est known c s = (s.setPosition c q).setOutlet c (some { o with
        assumedDraw := 0, recovery := false,
        state := if o.state = .homing then (if o.bars.all = true then .locked else .idle) else o.state }))

/-- Needs, grants and move starts. Where the channel is still and unqueued, a slot is free and no other channel waits (R97, R98,
R99, R103): a homing request drives closed for at most stroke × 1250 ms, or completes at once with CLIM made; a target within
DEADBAND of EST is stored and moves nothing, but for 0 without CLIM and 1000 without OLIM; any other target starts a move of the
kind and time of R103, with a check timer when it opens from the known seat, or completes at once on the limit it ends on, and
both limits active are a BOTH_LIMITS fault stop, also where one of them would complete the move at once (the model's reading,
log 20). At a driving channel a new target stops the move, renews it in its direction or reverses it with a pause of 2 s (R110,
R111), and a homing request renews or reverses it (R99). At a channel that does not drive, queued in one tier or not at all
(R100), the entry keeps its place, goes or joins the tail of its tier, and joining runs the arbiter (R97, R99, R101); in a
handed-off bank a target is stored alone (R100). The arbiter with any number of entries grants free slots to the closing tier
first, in order, passing over paused and handed-off channels (R102); that it reads the hand-off input for those is the model's
reading (log 16), and so is that each grant runs to its end before the next (log 13). -/
def Obligations.GrantedNeedStartsMove : Prop :=
  (∀ (s : State) (c : Channel) (o : Outlet) (p : Position) (stroke deadband : Nat),
    s.drive.closing = [] → s.drive.opening = [] → s.slotFree = true → s.outlet c = some o → p = s.position c →
    p.move = none → p.pause = none → p.homeReq = false → s.handedOff c = false → s.handoff.bho.get (bankOf c) = false →
    stroke = o.fixed.strokeS → deadband = (s.pool o.fixed.pool).settings.deadband →
    (s.climActive c = true → s.olimActive c = true →
      requestHoming c s = faultStop runArbiter true c .bothLimits (s.setPosition c { p with homeReq := true }) ∧
      ∀ (t : Nat) (d : MoveDir), t ≤ 1000 → p.est ≤ 1000 → needIs (some d) t p.est deadband true true →
        giveTarget c t s = faultStop runArbiter true c .bothLimits (s.setPosition c { p with target := some t })) ∧
    ((s.climActive c = false ∨ s.olimActive c = false) →
    (s.climActive c = false → requestHoming c s = s.setPosition c { p with
      homeReq := true,
      move := some { dir := .closing, kind := .homing, timer := stroke * 1250, elapsed := 0, stroke := stroke, check := none } }) ∧
    (s.climActive c = true → requestHoming c s = (s.setPosition c { p with
      est := 0, known := true, travel := 0, drift := false, target := some 0 }).setOutlet c (some { o with
        assumedDraw := 0, recovery := false,
        state := if o.state = .homing then (if o.bars.all = true then .locked else .idle) else o.state })) ∧
    ∀ t travel : Nat, t ≤ 1000 → p.est ≤ 1000 → travel = min 65535 p.travel →
      (t ≤ p.est + deadband → p.est ≤ t + deadband → (t = 0 → s.climActive c = true) → (t = 1000 → s.olimActive c = true) →
        giveTarget c t s = s.setPosition c { p with target := some t }) ∧
      (t = 0 → s.climActive c = false → giveTarget c t s = s.setPosition c { p with
        target := some t,
        move := some { dir := .closing, kind := if p.drift = true then .homing else .toClosed,
                       timer := if p.drift = true then stroke * 1250 else p.est * stroke + stroke * 250,
                       elapsed := 0, stroke := stroke, check := none } }) ∧
      (t = 0 → s.climActive c = true → deadband < p.est → p.drift = false → giveTarget c t s = s.setPosition c { p with
        target := some t, est := 0, known := true, travel := travel, drift := decide (4000 ≤ travel) }) ∧
      (t = 0 → s.climActive c = true → deadband < p.est → p.drift = true → giveTarget c t s = (s.setPosition c { p with
        target := some t, est := 0, known := true, travel := 0, drift := false }).setOutlet c (some { o with
          assumedDraw := 0, recovery := false,
          state := if o.state = .homing then (if o.bars.all = true then .locked else .idle) else o.state })) ∧
      (t = 1000 → s.olimActive c = true → p.est + deadband < 1000 → giveTarget c t s = s.setPosition c { p with
        target := some t, est := 1000, known := true, travel := travel, drift := p.drift || decide (4000 ≤ travel) }) ∧
      (0 < t → t + deadband < p.est → t < 1000 → giveTarget c t s = s.setPosition c { p with
        target := some t,
        move := some { dir := .closing, kind := .intermediate, timer := (p.est - t) * stroke, elapsed := 0, stroke := stroke,
                       check := none } }) ∧
      ((t < 1000 ∧ p.est + deadband < t ∨ t = 1000 ∧ s.olimActive c = false) → giveTarget c t s = s.setPosition c { p with
        target := some t,
        move := some { dir := .opening, kind := if t = 1000 then .toOpen else .intermediate,
                       timer := if t = 1000 then (1000 - p.est) * stroke + stroke * 250 else (t - p.est) * stroke,
                       elapsed := 0, stroke := stroke,
                       check := if p.known = true ∧ p.est = 0 ∧ s.climActive c = true then some (stroke * 100)
                                else none } }))) ∧
  (∀ (s : State) (c : Channel) (o : Outlet) (p q : Position) (m : Move) (driven deadband : Nat),
    s.drive.closing = [] → s.drive.opening = [] → s.outlet c = some o → p = s.position c → p.move = some m →
    s.handedOff c = false → deadband = (s.pool o.fixed.pool).settings.deadband → driven = m.elapsed / m.stroke → p.est ≤ 1000 →
    (m.dir = .closing → q.est = p.est - driven) → (m.dir = .opening → q.est = min 1000 (p.est + driven)) →
    q = { p with est := q.est, travel := min 65535 (p.travel + driven),
                 drift := p.drift || decide (4000 ≤ min 65535 (p.travel + driven)) } →
    (m.kind = .homing → requestHoming c s = s.setPosition c { p with homeReq := true }) ∧
    (m.kind ≠ .homing → m.dir = .closing → requestHoming c s = s.setPosition c { q with
      homeReq := true,
      move := some { m with kind := .homing, timer := m.stroke * 1250, elapsed := 0, check := none } }) ∧
    (m.kind ≠ .homing → m.dir = .opening → requestHoming c s =
      (s.setPosition c { q with homeReq := true, move := none, pause := some 2000 }).withQueue [c] []) ∧
    ∀ t : Nat, t ≤ 1000 →
      ((m.kind = .homing ∨ p.homeReq = true ∨ p.target = some t) →
        giveTarget c t s = s.setPosition c { p with target := some t }) ∧
      (m.kind ≠ .homing → p.homeReq = false → p.target ≠ some t →
        (needIs none t q.est deadband (s.olimActive c) (s.climActive c) →
          giveTarget c t s = s.setPosition c { q with target := some t, move := none }) ∧
        ∀ d : MoveDir, needIs (some d) t q.est deadband (s.olimActive c) (s.climActive c) →
          (d = m.dir → ∀ (k : MoveKind) (timer : Nat), moveIs d { q with target := some t } m.stroke k timer →
            giveTarget c t s = s.setPosition c { q with
              target := some t, move := some { m with kind := k, timer := timer, elapsed := 0, check := none } }) ∧
          (d ≠ m.dir → giveTarget c t s =
            (s.setPosition c { q with target := some t, move := none, pause := some 2000 }).withQueue
              (if d = .closing then [c] else []) (if d = .opening then [c] else [])))) ∧
  (∀ (s : State) (c : Channel) (t : Nat), (s.position c).move = none → s.handedOff c = true → c ∉ s.drive.closing →
    c ∉ s.drive.opening → giveTarget c t s = s.setPosition c { s.position c with target := some t }) ∧
  (∀ (s : State) (c : Channel) (o : Outlet) (p : Position) (deadband : Nat), s.outlet c = some o → p = s.position c →
    p.move = none → s.handedOff c = false → (c ∈ s.drive.closing → c ∉ s.drive.opening) →
    deadband = (s.pool o.fixed.pool).settings.deadband →
    (∀ u : State, u = s.setPosition c { p with homeReq := true } →
      (c ∈ s.drive.closing → requestHoming c s = u) ∧
      (c ∉ s.drive.closing → requestHoming c s =
        runArbiter (u.withQueue (s.drive.closing ++ [c]) (s.drive.opening.filter fun x => x ≠ c)))) ∧
    ∀ (t : Nat) (u : State), t ≤ 1000 → p.est ≤ 1000 → u = s.setPosition c { p with target := some t } →
      (p.homeReq = true → giveTarget c t s = u) ∧
      (p.homeReq = false →
        (needIs none t p.est deadband (s.olimActive c) (s.climActive c) → giveTarget c t s =
          u.withQueue (s.drive.closing.filter fun x => x ≠ c) (s.drive.opening.filter fun x => x ≠ c)) ∧
        (needIs (some .closing) t p.est deadband (s.olimActive c) (s.climActive c) →
          (c ∈ s.drive.closing → giveTarget c t s = u) ∧
          (c ∉ s.drive.closing → giveTarget c t s =
            runArbiter (u.withQueue (s.drive.closing ++ [c]) (s.drive.opening.filter fun x => x ≠ c)))) ∧
        (needIs (some .opening) t p.est deadband (s.olimActive c) (s.climActive c) →
          (c ∈ s.drive.opening → giveTarget c t s = u) ∧
          (c ∉ s.drive.opening → giveTarget c t s =
            runArbiter (u.withQueue (s.drive.closing.filter fun x => x ≠ c) (s.drive.opening ++ [c])))))) ∧
  ∀ s : State,
    ((s.slotFree = false ∨ ∀ x ∈ s.drive.closing ++ s.drive.opening, s.passedOver x) → runArbiter s = s) ∧
    ∀ (c : Channel) (o : Outlet) (p : Position) (d : MoveDir) (k : MoveKind) (timer : Nat) (front behind : List Channel) (u : State),
      s.slotFree = true → s.outlet c = some o → p = s.position c → ¬s.passedOver c → c ∉ front → c ∉ behind →
      (∀ x ∈ front, s.passedOver x) →
      ((d = .closing ∧ s.drive.closing = front ++ c :: behind ∧ c ∉ s.drive.opening ∧
          u = s.withQueue (front ++ behind) s.drive.opening) ∨
        (d = .opening ∧ s.drive.opening = front ++ c :: behind ∧ c ∉ s.drive.closing ∧
          (∀ x ∈ s.drive.closing, s.passedOver x) ∧ u = s.withQueue s.drive.closing (front ++ behind))) →
      (s.climActive c = false ∨ s.olimActive c = false) → moveIs d p o.fixed.strokeS k timer →
      ((k = .homing ∨ k = .toClosed) → s.climActive c = false) → (k = .toOpen → s.olimActive c = false) →
      runArbiter s = runArbiter (u.setPosition c { p with move := some {
        dir := d, kind := k, timer := timer, elapsed := 0, stroke := o.fixed.strokeS,
        check := if d = .opening ∧ p.known = true ∧ p.est = 0 ∧ s.climActive c = true then some (o.fixed.strokeS * 100)
                 else none } })

/-! ### Hand-off -/

/-- BHO_ASSERTION (R129 to R131): an edge of a bank not yet handed off stops each of its channels, with EST and TRAVEL of the
leg driven, no target, homing request, queue entry or pause, and KNOWN NO; its outlets become HELD by the table of R131, in
ascending order once every channel has stopped, and the steps on each that does fail with HANDOFF (R152): where one outlet alone
is claimed and none of its programs goes on, its holder and waiters are FAULTED with that reason, PROGRAM is raised and the
claim is left free; that the steps on one outlet fail before the next becomes HELD is the model's reading (log 13); HANDED_OFF
becomes YES and HANDOFF is raised. BHO_RELEASE (R133): an edge of a handed-off bank sets HANDED_OFF to NO, takes each HELD
outlet into HOMING with a homing request, in ascending channel order, leaves FAULTED and UNCONFIGURED ones so, and raises
HANDOFF; a homing granted at once completes with CLIM made, into IDLE or LOCKED, and fails with both limits made (R103, R120,
R121), and with no slot free the requests join the tail of the closing tier in that order; an outlet still homing keeps its
ASSUMED_DRAW, where its channel was still, unqueued and without a homing request, as R130 leaves it and StepKeepsDriveInRange
keeps it. An edge to the level the input already has is no event (the model's reading, log 17). -/
def Obligations.HandOffTakesAndReturnsBank : Prop :=
  ∀ (s : State) (b : BankId), s.rstLow = false →
    (s.handoff.bho.get b = true → exec (.bhoAssertion b) s = .next s) ∧
    (s.handoff.bho.get b = false → exec (.bhoRelease b) s = .next s) ∧
    (s.handoff.bho.get b = false → s.handoff.handedOff.get b = true → exec (.bhoAssertion b) s =
      .next { s with handoff := { s.handoff with bho := s.handoff.bho.set b true } }) ∧
    (s.handoff.bho.get b = true → s.handoff.handedOff.get b = false → exec (.bhoRelease b) s =
      .next { s with handoff := { s.handoff with bho := s.handoff.bho.set b false } }) ∧
    (s.handoff.bho.get b = false → s.handoff.handedOff.get b = false → ∃ t : State, exec (.bhoAssertion b) s = .next t ∧
      t.handoff.bho = s.handoff.bho.set b true ∧ t.handoff.handedOff = s.handoff.handedOff.set b true ∧
      t.isPending .handoff = true ∧
      (∀ (bank : List Channel) (u v : State), bank.Pairwise (fun x y => x < y) → (∀ c : Channel, c ∈ bank ↔ bankOf c = b) →
        u = bank.foldl (fun (x : State) c => (stopChannel c x).setPosition c { (stopChannel c x).position c with known := false })
          { s with handoff := { s.handoff with bho := s.handoff.bho.set b true } } →
        v = bank.foldl (fun (x : State) c => match x.outlet c with
          | some o => if o.state.eligible = true then failStepsOn c .handoff (x.setOutlet c (some { o with
                state := .held, assumedDraw := o.grant, grant := 0, effDemand := 0, warmTimer := none }))
              else if o.state = .homing ∨ o.state = .locked then
                failStepsOn c .handoff (x.setOutlet c (some { o with state := .held }))
              else x
          | none => x) u →
        t = raise .handoff { v with handoff := { v.handoff with handedOff := v.handoff.handedOff.set b true } }) ∧
      (∀ (c : Channel) (o : Outlet) (h : Holder), bankOf c = b → s.outlet c = some o → o.state ≠ .held → o.state ≠ .faulted →
        ((∀ d : Channel, bankOf d = b → (s.position d).move = none) ∨ s.drive.closing = [] ∧ s.drive.opening = []) →
        (∀ d : Channel, bankOf d = b → d ≠ c → s.claim d = { holder := none, waiters := [] }) →
        (s.claim c).holder = some h → (s.claim c).waiters.Nodup → h.slot ∉ (s.claim c).waiters →
        (∀ j ∈ h.slot :: (s.claim c).waiters, (s.slot j).continueOnFault = false ∧
          ∃ st : Step, (s.slot j).currentStep = some st ∧ st.channel = c) →
        t.claim c = { holder := none, waiters := [] } ∧ (∀ d : Channel, d ≠ c → t.claim d = s.claim d) ∧
        t.isPending .program = true ∧
        (∀ j ∈ h.slot :: (s.claim c).waiters, ∃ x : ProgSlot, t.slot j = x ∧
          x = { (s.slot j).failed .handoff with state := .faulted }) ∧
        ∀ j : SlotId, j ∉ h.slot :: (s.claim c).waiters → t.slot j = s.slot j) ∧
      ∀ c : Channel, bankOf c = b →
        (∃ p : Position, t.position c = p ∧ p = { estimateLeg (s.position c) with
          known := false, target := none, move := none, homeReq := false, pause := none }) ∧
        c ∉ t.drive.closing ∧ c ∉ t.drive.opening ∧
        (s.outlet c = none → t.outlet c = none) ∧
        ∀ o : Outlet, s.outlet c = some o →
          (o.state.eligible = true → t.outlet c = some { o with
            state := .held, assumedDraw := o.grant, grant := 0, effDemand := 0, warmTimer := none }) ∧
          ((o.state = .homing ∨ o.state = .locked) → t.outlet c = some { o with state := .held }) ∧
          ((o.state = .held ∨ o.state = .faulted) → t.outlet c = some o)) ∧
    (s.handoff.bho.get b = true → s.handoff.handedOff.get b = true → ∃ t : State, exec (.bhoRelease b) s = .next t ∧
      t.handoff.bho = s.handoff.bho.set b false ∧ t.handoff.handedOff = s.handoff.handedOff.set b false ∧
      t.isPending .handoff = true ∧
      (∀ bank : List Channel, bank.Pairwise (fun x y => x < y) → (∀ c : Channel, c ∈ bank ↔ bankOf c = b) →
        t = raise .handoff (bank.foldl (fun (x : State) c => match x.outlet c with
          | some o => if o.state = .held then requestHoming c (x.setOutlet c (some { o with state := .homing })) else x
          | none => x)
          { s with handoff := { bho := s.handoff.bho.set b false, handedOff := s.handoff.handedOff.set b false } }) ∧
        (s.slotFree = false → (∀ c ∈ bank, (s.position c).move = none ∧ c ∉ s.drive.closing ∧ c ∉ s.drive.opening) →
          t.drive.closing = s.drive.closing ++ bank.filter (fun c => decide ((s.outlet c).map (fun o => o.state) = some .held)) ∧
          t.drive.opening = s.drive.opening)) ∧
      ∀ c : Channel, bankOf c = b →
        (s.outlet c = none → t.outlet c = none) ∧
        ∀ o : Outlet, s.outlet c = some o → ∃ u : Outlet, t.outlet c = some u ∧ u.fixed = o.fixed ∧ u.bars = o.bars ∧
          (o.state = .faulted → u.state = .faulted) ∧
          (o.state = .held → u.state = .homing ∨ s.homesAtOnce c u ∨ s.failsAtOnce c u) ∧
          (o.state = .held → u.state = .homing → (t.position c).homeReq = true) ∧
          (o.state = .held → u.state = .homing → (s.position c).move = none → (s.position c).homeReq = false →
            c ∉ s.drive.closing → c ∉ s.drive.opening → u.assumedDraw = o.assumedDraw))

/-! ### Duty programs -/

/-- PROG_LOAD_FIRST (R138, R140): the checks of R138 refuse in their order, with the step's index or 0; otherwise the slot takes
the settings and the carried steps, clamped, with the run state R138 gives, LOADED or, with no steps, EMPTY; nothing else
changes. That a part code that is neither FIRST nor NEXT is executed by this row, at the lengths of either part, and refused
RANGE with 0 is the model's reading (log 22). -/
def Obligations.FirstPartReplacesProgram : Prop :=
  (∀ (s : State) (f : Frame) (rest : List Frame) (k : Nat), s.takes f rest → f.kind = 0x0E → 1 ≤ k → k ≤ 12 →
    f.payload.length = 2 + 9 * k → 2 ≤ readByte f.payload 1 →
    exec .progLoadFirst s = .next ((s.dequeue rest).answered f ⟨.range, [0]⟩)) ∧
  ∀ (s : State) (f : Frame) (rest : List Frame) (n : Nat), s.takes f rest → f.kind = 0x0E → f.payload.length = 8 + 9 * n →
    n ≤ 12 → readByte f.payload 1 ≠ 1 → s.stepsStored ≤ 64 →
    ((4 ≤ readByte f.payload 0 ∨ 2 ≤ readByte f.payload 1) →
      exec .progLoadFirst s = .next ((s.dequeue rest).answered f ⟨.range, [0]⟩)) ∧
    ∀ i : SlotId, i.val = readByte f.payload 0 → readByte f.payload 1 = 0 →
      (((s.slot i).state = .waiting ∨ (s.slot i).state = .running) →
        exec .progLoadFirst s = .next ((s.dequeue rest).answered f ⟨.state, [0]⟩)) ∧
      ((s.slot i).state ≠ .waiting → (s.slot i).state ≠ .running →
        ((10080 ≤ readWord f.payload 3 ∧ readWord f.payload 3 ≠ 0xFFFF ∨ 10080 ≤ readWord f.payload 5 ∨
            2 ≤ readByte f.payload 7) →
          exec .progLoadFirst s = .next ((s.dequeue rest).answered f ⟨.range, [0]⟩)) ∧
        ∀ (start : Option Nat) (cont : Bool), (readWord f.payload 3 = 0xFFFF ∧ start = none ∨
            readWord f.payload 3 < 10080 ∧ start = some (readWord f.payload 3)) → readWord f.payload 5 < 10080 →
          readByte f.payload 7 = cont.toNat →
          (∀ (k : Nat) (st : Status), firstBadStep s.xlat f.payload 8 n k st →
            exec .progLoadFirst s = .next ((s.dequeue rest).answered f ⟨st, [byte (k + 1)]⟩)) ∧
          ∀ steps : List Step, carriesSteps s.xlat f.payload 8 n steps →
            (64 + (s.slot i).steps.length < s.stepsStored + n →
              exec .progLoadFirst s = .next ((s.dequeue rest).answered f ⟨.noSpace, [0]⟩)) ∧
            (s.stepsStored + n ≤ 64 + (s.slot i).steps.length → ∃ st : Status,
              (st = .done ∨ st = .doneClamped) ∧ (st = .done ↔ stepsInRange f.payload 8 n) ∧
              exec .progLoadFirst s = .next (((s.dequeue rest).setSlot i
                { steps := steps, loops := readByte f.payload 2, start := start, intervalMin := readWord f.payload 5,
                  continueOnFault := cont, state := if n = 0 then .empty else .loaded, loopsLeft := readByte f.payload 2,
                  waitMinute := none, loopStart := 0, curStep := 0, phase := .none, reach := none, hold := none, gap := none,
                  dips := 0, faultsSeen := false, results := List.replicate n .notRun }).answered f ⟨st, []⟩)))

/-- PROG_LOAD_NEXT (R139, R140): the checks of R139 refuse in their order, with the step's index or 0; otherwise the carried
steps, clamped, join the slot's list with results NOT_RUN, and nothing else changes. -/
def Obligations.NextPartAppendsSteps : Prop :=
  ∀ (s : State) (f : Frame) (rest : List Frame) (n : Nat), s.takes f rest → f.kind = 0x0E → f.payload.length = 2 + 9 * n →
    1 ≤ n → n ≤ 12 → readByte f.payload 1 = 1 → s.stepsStored ≤ 64 →
    (4 ≤ readByte f.payload 0 → exec .progLoadNext s = .next ((s.dequeue rest).answered f ⟨.range, [0]⟩)) ∧
    ∀ i : SlotId, i.val = readByte f.payload 0 →
      ((s.slot i).state ≠ .loaded → exec .progLoadNext s = .next ((s.dequeue rest).answered f ⟨.state, [0]⟩)) ∧
      ((s.slot i).state = .loaded →
        (∀ (k : Nat) (st : Status), firstBadStep s.xlat f.payload 2 n k st →
          exec .progLoadNext s = .next ((s.dequeue rest).answered f ⟨st, [byte (k + 1)]⟩)) ∧
        ∀ steps : List Step, carriesSteps s.xlat f.payload 2 n steps →
          (32 < (s.slot i).steps.length + n → exec .progLoadNext s = .next ((s.dequeue rest).answered f ⟨.range, [0]⟩)) ∧
          ((s.slot i).steps.length + n ≤ 32 → 64 < s.stepsStored + n →
            exec .progLoadNext s = .next ((s.dequeue rest).answered f ⟨.noSpace, [0]⟩)) ∧
          ((s.slot i).steps.length + n ≤ 32 → s.stepsStored + n ≤ 64 → ∃ st : Status,
            (st = .done ∨ st = .doneClamped) ∧ (st = .done ↔ stepsInRange f.payload 2 n) ∧
            exec .progLoadNext s = .next (((s.dequeue rest).setSlot i { s.slot i with
              steps := (s.slot i).steps ++ steps,
              results := (s.slot i).results ++ List.replicate n .notRun }).answered f ⟨st, []⟩)))

/-- PROG_START (R141): refused RANGE, STATE or CLOCK_UNSET in that order; otherwise a new run begins, waiting for the minute of
START, or with its first pass at once. The first step of a pass begins (R145): a check that fails, or a FAULTED input on taking
the claim, fails it; a held claim puts it at the tail of the queue; a free one it takes, with the kW limited to RATED_KW, and
goes to REACHING, or where it needs no temperature to HOLDING, or with HOLD_MIN 0 passes at once (R146, R149). A step that
failed or passed so ends the run, or the slot goes on (R153, R154). PROG_STOP (R143): refused RANGE or STATE; otherwise the slot
is STOPPED with its timers stopped and its step index kept, a waiting step leaves its queue, and a claim held passes to the head
of its queue, or is freed with no step waiting. That a new run keeps the current step index until its pass begins (log 15), and
that what a step's end sets off is taken in this order (log 13), is the model's reading. -/
def Obligations.ProgramStartsAndStops : Prop :=
  (∀ (s : State) (f : Frame) (rest : List Frame), s.takes f rest → f.payload.length = 1 →
    (4 ≤ readByte f.payload 0 →
      (f.kind = 0x0F → exec .progStart s = .next (s.refused f rest .range)) ∧
      (f.kind = 0x10 → exec .progStop s = .next (s.refused f rest .range))) ∧
    ∀ (i : SlotId) (x fresh : ProgSlot), i.val = readByte f.payload 0 → x = s.slot i →
      fresh = { x with
        loopsLeft := x.loops, faultsSeen := false, dips := 0, results := List.replicate x.steps.length .notRun } →
      (f.kind = 0x0F →
        ((x.state = .empty ∨ x.state = .waiting ∨ x.state = .running) → exec .progStart s = .next (s.refused f rest .state)) ∧
        (x.state ≠ .empty → x.state ≠ .waiting → x.state ≠ .running →
          (∀ m : Nat, x.start = some m → s.clock.isSet = false → exec .progStart s = .next (s.refused f rest .clockUnset)) ∧
          (∀ m : Nat, x.start = some m → s.clock.isSet = true → exec .progStart s = .next
            (((s.dequeue rest).setSlot i { fresh with state := .waiting, waitMinute := some m }).answered f ⟨.done, []⟩)) ∧
          (x.start = none → exec .progStart s = .next
            ((beginPass i s.clock.minute ((s.dequeue rest).setSlot i fresh)).answered f ⟨.done, []⟩)))) ∧
      (f.kind = 0x10 →
        (x.state ≠ .waiting → x.state ≠ .running → exec .progStop s = .next (s.refused f rest .state)) ∧
        ∀ y : ProgSlot, (x.state = .waiting ∨ x.state = .running) →
          y = { x with
            state := .stopped, phase := .none, reach := none, hold := none, gap := none, waitMinute := none } →
          (x.currentStep = none → exec .progStop s = .next (((s.dequeue rest).setSlot i y).answered f ⟨.done, []⟩)) ∧
          ∀ st : Step, x.currentStep = some st →
            ((∀ h : Holder, (s.claim st.channel).holder = some h → h.slot ≠ i) → exec .progStop s = .next
              ((((s.dequeue rest).setClaim st.channel { s.claim st.channel with
                waiters := (s.claim st.channel).waiters.filter fun j => j ≠ i }).setSlot i y).answered f ⟨.done, []⟩)) ∧
            ((∃ h : Holder, (s.claim st.channel).holder = some h ∧ h.slot = i) → (s.claim st.channel).waiters = [] →
              exec .progStop s = .next ((((s.dequeue rest).setClaim st.channel { holder := none, waiters := [] }).setSlot i
                y).answered f ⟨.done, []⟩)) ∧
            ∀ t : State, (∃ h : Holder, (s.claim st.channel).holder = some h ∧ h.slot = i) → i ∉ (s.claim st.channel).waiters →
              State.PassesOn st.channel (((s.dequeue rest).setClaim st.channel { s.claim st.channel with
                holder := none }).setSlot i y) t →
              exec .progStop s = .next (t.answered f ⟨.done, []⟩))) ∧
  (∀ (s t u : State) (i : SlotId) (minute : Nat) (st : Step) (y : ProgSlot), (s.slot i).steps[0]? = some st →
    y = { s.slot i with
      state := .running, waitMinute := none, loopStart := minute, gap := none,
      results := List.replicate (s.slot i).steps.length .notRun } →
    u = s.setSlot i y →
    (u.begins t i 1 → beginPass i minute s = t) ∧
    (∀ why : FailReason, s.failsBeginning st why → (∀ h : Holder, (s.claim st.channel).holder = some h → h.slot ≠ i) →
      i ∉ (s.claim st.channel).waiters → (s.setSlot i (y.begun 1 st)).settles t i why → beginPass i minute s = t) ∧
    ∀ o : Outlet, s.outlet st.channel = some o → o.takesSteps → s.claim st.channel = { holder := none, waiters := [] } →
      st.targetTemp = 0 → st.holdMin = 0 → (s.setSlot i ((y.begun 1 st).resulted .passed)).goesOn t i →
      beginPass i minute s = t) ∧
  ∀ (s : State) (i : SlotId) (minute : Nat) (st : Step) (o : Outlet), (s.slot i).steps[0]? = some st →
    s.outlet st.channel = some o → o.feederOf = none → o.bars.prog = false → o.bars.all = false → o.state ≠ .faulted →
    o.state ≠ .held → s.claim st.channel = { holder := none, waiters := [] } → st.targetTemp ≠ 0 →
    (s.sensor (branchInput st.channel)).faulted = false →
    beginPass i minute s = (s.setClaim st.channel
      { holder := some { slot := i, step := 1, kw := min st.kw o.fixed.ratedKw }, waiters := [] }).setSlot i { s.slot i with
        state := .running, waitMinute := none, loopStart := minute, gap := none,
        results := List.replicate (s.slot i).steps.length .notRun, curStep := 1, phase := .reaching, dips := 0,
        reach := some (st.reachMin * 60), hold := none }

/-- The timers of the duty programs. REACH_TIMER_EXPIRY (R150, R153): the step fails with TIMEOUT; as a holder it gives up the
claim, which passes to the head of its queue, or is free with no step waiting (R146); as a waiter it leaves the queue; and
without CONTINUE_ON_FAULT the slot is FAULTED and PROGRAM raised, with it the slot goes on. HOLD_TIMER_EXPIRY (R149, R154): the
step passes, its claim passes on in the same way, and the slot goes on to its next step, or after the last step the pass ends:
with the last loop DONE and PROGRAM raised, otherwise with the 1 s gap or a wait for the next pass. GAP_TIMER_EXPIRY_PROG
(R154): the next pass begins at the clock's minute. A timer that runs or is stopped has not expired (the model's reading, log
2), and a pass that ends leaves current step 0 (log 15); what a step's end sets off is taken in this order by the model's
reading (log 13). -/
def Obligations.ProgramTimersExpire : Prop :=
  ∀ (s : State) (i : SlotId) (x : ProgSlot), s.rstLow = false → x = s.slot i →
    (x.reach ≠ some 0 → exec (.reachTimerExpiry i) s = .next s) ∧ (x.hold ≠ some 0 → exec (.holdTimerExpiry i) s = .next s) ∧
    (x.gap ≠ some 0 → exec (.gapTimerExpiryProg i) s = .next s) ∧
    (x.gap = some 0 → exec (.gapTimerExpiryProg i) s = .next (beginPass i s.clock.minute s)) ∧
    (x.reach = some 0 → exec (.reachTimerExpiry i) s = .next (runDuty [.fail i .timeout] s)) ∧
    (x.hold = some 0 → exec (.holdTimerExpiry i) s = .next (runDuty [.pass i] s)) ∧
    (∀ (st : Step) (h : Holder) (u v t : State), x.currentStep = some st → (s.claim st.channel).holder = some h → h.slot = i →
      i ∉ (s.claim st.channel).waiters → u = s.setClaim st.channel { s.claim st.channel with holder := none } →
      (x.reach = some 0 → State.PassesOn st.channel u v → v.settles t i .timeout → exec (.reachTimerExpiry i) s = .next t) ∧
      (x.hold = some 0 → State.PassesOn st.channel (u.setSlot i (x.resulted .passed)) v → v.goesOn t i →
        exec (.holdTimerExpiry i) s = .next t)) ∧
    (∀ (st : Step) (t : State), x.currentStep = some st → x.reach = some 0 →
      (∀ h : Holder, (s.claim st.channel).holder = some h → h.slot ≠ i) →
      (s.setClaim st.channel { s.claim st.channel with
        waiters := (s.claim st.channel).waiters.filter fun j => j ≠ i }).settles t i .timeout →
      exec (.reachTimerExpiry i) s = .next t) ∧
    ∀ (st : Step) (h : Holder), x.currentStep = some st → s.claim st.channel = { holder := some h, waiters := [] } →
      h.slot = i →
      (x.reach = some 0 → x.continueOnFault = false → exec (.reachTimerExpiry i) s = .next (raise .program
        ((s.setClaim st.channel { holder := none, waiters := [] }).setSlot i { x with
          results := x.results.set (x.curStep - 1) (.failed .timeout), reach := none, hold := none, faultsSeen := true,
          phase := .none, state := .faulted }))) ∧
      ∀ y : ProgSlot, x.hold = some 0 → x.curStep = x.steps.length →
        y = { x with
          results := x.results.set (x.curStep - 1) .passed, reach := none, hold := none, phase := .none, curStep := 0,
          loopsLeft := if x.loops = 0 then x.loopsLeft else x.loopsLeft - 1 } →
        (x.loops ≠ 0 → x.loopsLeft = 1 → exec (.holdTimerExpiry i) s = .next (raise .program
          ((s.setClaim st.channel { holder := none, waiters := [] }).setSlot i { y with state := .done }))) ∧
        ((x.loops = 0 ∨ 2 ≤ x.loopsLeft) → x.intervalMin = 0 → exec (.holdTimerExpiry i) s = .next
          ((s.setClaim st.channel { holder := none, waiters := [] }).setSlot i { y with gap := some 1 })) ∧
        ((x.loops = 0 ∨ 2 ≤ x.loopsLeft) → x.intervalMin ≠ 0 → exec (.holdTimerExpiry i) s = .next
          ((s.setClaim st.channel { holder := none, waiters := [] }).setSlot i { y with
            state := .waiting, waitMinute := some ((x.loopStart + x.intervalMin) % 10080) }))

/-! ### Sensors and clock -/

/-- SAMPLE_EVENT (R160 to R163, R63): the input record moves by the table of R160, every other record stays, and SENSOR is
raised at a fault entry and exit alone. A sample of HDRP, STMP1 or STMP2 does nothing else, and neither does one of a branch
whose claim is free, except to end the warm-up of a WARMING outlet when valid, not faulted, and at or above WARM_TEMP. Where a
step that needs a temperature holds the claim, such a sample also acts on it (R147, R148): REACHING, at or above TARGET_TEMP it
goes to HOLDING, and passes with HOLD_MIN 0; HOLDING, below TARGET_TEMP - 20 it dips, back to REACHING with the reach timer
restarted, or at the third dip it fails with UNSTABLE; and a fault entry fails it with SENSOR (R152). Other samples and steps
have no such effect. Warm-up is taken before the step (the model's choice, log 18). -/
def Obligations.SampleEventMovesRecord : Prop :=
  ∀ (s : State) (i : InputId) (r : Int) (valid : Bool), s.rstLow = false →
    (i ≠ 48 → valid = decide (-200 ≤ r ∧ r ≤ 2000)) → (i = 48 → valid = decide (0 ≤ r ∧ r ≤ 1600)) →
    ∃ (x y : Sensor) (t u : State), x = s.sensor i ∧ exec (.sampleEvent i r) s = .next t ∧ t.sensors = s.sensors.set i y ∧
      (valid = true → y.lastGood = r ∧ y.badRun = 0 ∧ y.goodRun = min 3 (x.goodRun + 1) ∧
        (y.faulted = true ↔ x.faulted = true ∧ x.goodRun < 2)) ∧
      (valid = false → y.lastGood = x.lastGood ∧ y.badRun = min 2 (x.badRun + 1) ∧ y.goodRun = 0 ∧
        (y.faulted = true ↔ x.faulted = true ∨ 1 ≤ x.badRun)) ∧
      u = (if y.faulted = x.faulted then s.setSensor i y else raise .sensor (s.setSensor i y)) ∧
      (48 ≤ i.val → t = u) ∧
      (∀ (c : Channel) (h : Holder) (st : Step) (z : ProgSlot) (w : State), c.val = i.val → (s.claim c).holder = some h →
        z = s.slot h.slot → z.currentStep = some st →
        (∀ o : Outlet, s.outlet c = some o → o.state = .warming → valid = true → y.faulted = false → o.fixed.warmTemp ≤ r →
          w = u.setOutlet c (some { o with state := .serving, warmTimer := none })) →
        ((valid = false ∨ y.faulted = true ∨
            ∀ o : Outlet, s.outlet c = some o → o.state ≠ .warming ∨ r < o.fixed.warmTemp) → w = u) →
        ((st.targetTemp = 0 ∨ z.phase = .claiming) → t = w) ∧
        (st.targetTemp ≠ 0 → valid = true → y.faulted = false → z.phase = .reaching →
          (r < st.targetTemp → t = w) ∧
          ∀ v : State, v = w.setSlot h.slot { z with phase := .holding, reach := none, hold := some (st.holdMin * 60) } →
            (st.targetTemp ≤ r → 0 < st.holdMin → t = v) ∧
            (st.targetTemp ≤ r → st.holdMin = 0 → t = runDuty [.pass h.slot] v)) ∧
        (st.targetTemp ≠ 0 → valid = true → y.faulted = false → z.phase = .holding →
          (st.targetTemp - 20 ≤ r → t = w) ∧
          (r < st.targetTemp - 20 → z.dips ≠ 2 → t = w.setSlot h.slot { z with
            dips := z.dips + 1, phase := .reaching, hold := none, reach := some (st.reachMin * 60) }) ∧
          (r < st.targetTemp - 20 → z.dips = 2 → t = runDuty [.fail h.slot .unstable] (w.setSlot h.slot { z with dips := 3 }))) ∧
        (st.targetTemp ≠ 0 → (z.phase = .reaching ∨ z.phase = .holding) → x.faulted = false → y.faulted = true →
          t = runDuty [.fail h.slot .sensor] u) ∧
        ((valid = false ∨ y.faulted = true) → y.faulted = x.faulted → t = u)) ∧
      ∀ c : Channel, c.val = i.val → (s.claim c).holder = none →
        (∀ o : Outlet, s.outlet c = some o → o.state = .warming → valid = true → y.faulted = false → o.fixed.warmTemp ≤ r →
          t = u.setOutlet c (some { o with state := .serving, warmTimer := none })) ∧
        ((valid = false ∨ y.faulted = true ∨
            ∀ o : Outlet, s.outlet c = some o → o.state ≠ .warming ∨ r < o.fixed.warmTemp) → t = u)

/-- CLOCK_TICK (R164, R165): the clock advances by a second, SECOND 60 becoming 0 with MINUTE one higher and 10080 becoming 0;
every timer counted in seconds counts one; and at a minute event each slot that waits for that minute begins its pass, in
ascending order (R142). CLOCK_SET (R165): a bad MINUTE or SECOND is refused RANGE; otherwise both are loaded and SET is set, and
nothing else changes. That the tick also ends the second of the millisecond timebase, and counts the milliseconds of it not yet
counted on the move, check, pause and receiver gap timers and on the leg of a move, is the model's reading (log 3); that an
expiry due at the tick comes after its clock advance and minute event, none being part of it, is the model's choice (log 29).
Nothing else changes: estimates, the motion queue, the input levels, the settings and figures of the pools and the frames that
wait stand. -/
def Obligations.ClockTicksAndLoads : Prop :=
  (∀ s : State, s.rstLow = false → ∃ t : State,
    t.clock.isSet = s.clock.isSet ∧
    (s.clock.second < 59 → t.clock.second = s.clock.second + 1 ∧ t.clock.minute = s.clock.minute ∧
      exec .clockTick s = .next t) ∧
    (59 ≤ s.clock.second → t.clock.second = 0 ∧ t.clock.minute = (s.clock.minute + 1) % 10080 ∧
      exec .clockTick s = .next ((wokenSlots t.clock.minute t).foldl (fun u i => beginPass i t.clock.minute u) t)) ∧
    (∀ i : SlotId, i ∈ wokenSlots t.clock.minute t ↔
      (s.slot i).state = .waiting ∧ (s.slot i).waitMinute = some t.clock.minute) ∧
    (wokenSlots t.clock.minute t).Pairwise (fun i j => i < j) ∧
    (∀ c : Channel, t.outlet c =
      (s.outlet c).map fun o => { o with warmTimer := o.warmTimer.map fun n => n - 1 }) ∧
    (∀ (c : Channel) (kw n : Nat), s.demand c = .current kw n → t.demand c = .current kw (n - 1)) ∧
    (∀ c : Channel, (∀ kw n : Nat, s.demand c ≠ .current kw n) → t.demand c = s.demand c) ∧
    (∀ p : Pool, ∃ r : PoolRecord, t.pool p = r ∧
      r = { s.pool p with roundTimer := (s.pool p).roundTimer.map fun n => n - 1 }) ∧
    (∀ h : HwPool, t.hwPart h = s.hwPart h) ∧
    t.pools.steamPart = { s.pools.steamPart with capTimer := s.pools.steamPart.capTimer.map fun n => n - 1 } ∧
    (∀ i : SlotId, ∃ x : ProgSlot, t.slot i = x ∧ x = { s.slot i with
      reach := (s.slot i).reach.map fun n => n - 1, hold := (s.slot i).hold.map fun n => n - 1,
      gap := (s.slot i).gap.map fun n => n - 1 }) ∧
    (∀ (c : Channel) (left : Nat), left = 1000 - s.msPhase → t.position c = { s.position c with
      pause := (s.position c).pause.map (fun n => n - left),
      move := (s.position c).move.map fun m => { m with
        timer := m.timer - left, elapsed := m.elapsed + min left m.timer, check := m.check.map (fun n => n - left) } }) ∧
    t = { s with msPhase := 0, clock := t.clock, outlets := t.outlets, pools := t.pools, demands := t.demands,
                 duty := { s.duty with slots := t.duty.slots }, drive := { s.drive with positions := t.drive.positions },
                 link := { s.link with rxGap := s.link.rxGap.map fun n => n - (1000 - s.msPhase) } }) ∧
  ∀ (s : State) (f : Frame) (rest : List Frame), s.takes f rest → f.kind = 0x11 → f.payload.length = 3 →
    ((10080 ≤ readWord f.payload 0 ∨ 60 ≤ readByte f.payload 2) → exec .clockSet s = .next (s.refused f rest .range)) ∧
    (readWord f.payload 0 < 10080 → readByte f.payload 2 < 60 → exec .clockSet s = .next
      (({ s.dequeue rest with clock := { minute := readWord f.payload 0, second := readByte f.payload 2, isSet := true } } :
        State).answered f ⟨.done, []⟩))

/-! ### Read requests -/

/-- The read requests are snapshots (R24, R45, R156, R163, R187): each is refused with the translator's code or RANGE, or
answers DONE with the data that 11.5 lays out, byte for byte, and changes nothing else. READ_OUTLET: 69 bytes, with zero bytes
for the record parts of an absent record. READ_POOL: 43 bytes for STEAM, 36 for an HW pool. READ_PROG: 24 bytes and one for each
step's result, with zero bytes for the settings of an EMPTY slot and, with no step in progress, for its dip count. The fillers
are those of log 19. READ_SENSORS: 4 bytes and 3 for each input. READ_STATUS: 88 bytes; that bits 6 and 7 of its HANDED_OFF byte
are 0 is the model's choice (log 27). -/
def Obligations.ReadsAreSnapshots : Prop :=
  ∀ (s : State) (f : Frame) (rest : List Frame), s.takes f rest →
    (f.kind = 0x12 → f.payload.length = 2 →
      (∀ st : Status, translate s.xlat (readWord f.payload 0) = .error st →
        exec .readOutlet s = .next (s.refused f rest st)) ∧
      ∀ c : Channel, translate s.xlat (readWord f.payload 0) = .ok c → ∃ data : List Byte, data.length = 69 ∧
        exec .readOutlet s = .next ((s.dequeue rest).answered f ⟨.done, data⟩) ∧ data[0]? = some (byte c.val) ∧
        readWord data 59 = (s.position c).est % 65536 ∧
        (∀ o : Outlet, s.outlet c = some o → readWord data 36 = o.grant % 65536) ∧
        ∀ (claim place demand : List Byte) (p : Position) (motion tier : Byte), p = s.position c →
          (p.move = none → motion = 0) →
          (∀ m : Move, p.move = some m → (m.dir = .opening → motion = 1) ∧ (m.dir = .closing → motion = 2)) →
          (c ∈ s.drive.closing → tier = 1) → (c ∉ s.drive.closing → c ∈ s.drive.opening → tier = 2) →
          (c ∉ s.drive.closing → c ∉ s.drive.opening → tier = 0) →
          place = be16 p.est ++ [flagByte p.known] ++ be16Opt p.target ++ [motion] ++ be16 p.travel ++
            [flagByte p.drift, tier] →
          ((s.claim c).holder = none → claim = [0xFF, 0, 0]) →
          (∀ h : Holder, (s.claim c).holder = some h →
            claim = [byte h.slot.val, byte h.step, byte (s.claim c).waiters.length]) →
          (s.demand c = .absent → demand = [0, 0, 0, 0, 0, 0]) →
          (∀ kw n : Nat, s.demand c = .current kw n → demand = [1] ++ be16 kw ++ [0] ++ be16 n) →
          (∀ kw : Nat, s.demand c = .stale kw → demand = [1] ++ be16 kw ++ [1, 0, 0]) →
          (s.outlet c = none → data = [byte c.val, 0] ++ List.replicate 34 0 ++
            [0, 0, 0, 0, 0, 0, 0xFF, 0, 0, 0, 0xFF, 0xFF] ++ demand ++ [0, 0] ++ claim ++ place) ∧
          ∀ (o : Outlet) (state feeder : Byte) (profiles : List Byte), s.outlet c = some o →
            (o.state = .homing → state = 1) → (o.state = .idle → state = 2) → (o.state = .warming → state = 3) →
            (o.state = .serving → state = 4) → (o.state = .held → state = 5) → (o.state = .locked → state = 6) →
            (o.state = .faulted → state = 7) → (o.feederOf = none → feeder = 0xFF) → (o.feederOf = some .hw1 → feeder = 1) →
            (o.feederOf = some .hw2 → feeder = 2) →
            profiles = [o.setA, o.setB].flatMap (fun x => [x.cls.code] ++ be16 x.floorKw ++ be16 x.maxKw ++ [byte x.weight] ++
              be16 x.warmKw ++ [byte x.tolerance]) →
            data = [byte c.val, state, poolCode o.fixed.pool] ++ be16 o.fixed.ratedKw ++ be16 o.fixed.strokeS ++
              be16 o.fixed.fallbackKw ++ [flagByte o.fixed.autoRecover] ++ beInt o.fixed.warmTemp ++ be16 o.fixed.warmMaxS ++
              profiles ++ [(s.pool o.fixed.pool).activeBank.code, flagByte o.bars.host, flagByte o.bars.prog, flagByte o.bars.all] ++
              be16 o.grant ++ be16 o.effDemand ++ be16 o.assumedDraw ++ [feeder] ++ be16 o.feederDemand ++ [flagByte o.recovery] ++
              be16Opt o.warmTimer ++ demand ++ [byte (s.curtailment c).counter, flagByte (s.curtailment c).floorCut] ++ claim ++
              place) ∧
    (f.kind = 0x13 → f.payload.length = 1 →
      (3 ≤ readByte f.payload 0 → exec .readPool s = .next (s.refused f rest .range)) ∧
      ∀ p : Pool, poolOf (readByte f.payload 0) = some p → ∃ data : List Byte,
        data.length = (if p = .steam then 43 else 36) ∧
        exec .readPool s = .next ((s.dequeue rest).answered f ⟨.done, data⟩) ∧ data[0]? = some (poolCode p) ∧
        readWord data (if p = .steam then 32 else 25) = (s.pool p).figures.c % 65536 ∧
        ∀ (r : PoolRecord) (x : SteamPart) (first behind totals : List Byte), r = s.pool p → x = s.pools.steamPart →
          first = [poolCode p, flagByte r.settings.enable, byte r.settings.periodS, byte r.settings.reservePct] ++
            be16 r.settings.demandStaleS ++ [byte r.settings.deadband] →
          behind = [r.activeBank.code, flagByte r.swapPending, byteOpt r.roundTimer] →
          totals = be16 r.figures.b ++ be16 r.figures.a ++ be16 r.figures.k ++ be16 r.figures.h ++ be16 r.figures.c ++
            be24 r.totals.sumE ++ be16 r.totals.sumGrant ++ [byte r.totals.eligibleCount, byte r.totals.curtailedCount] ++
            be16 r.roundCount →
          (p = .steam → data = first ++ be16 x.settings.capStaleS ++ [byte x.settings.capFallbackPct] ++ be16 x.settings.pLow ++
            be16 x.settings.pTrip ++ be16 x.settings.pFaultFactor ++ behind ++ be16 x.cd ++ [flagByte x.capStale] ++
            be16Opt x.capTimer ++ totals) ∧
          ∀ (h : HwPool) (y : HwPart) (feeder : List Byte), p = .hw h → y = s.hwPart h →
            (y.feeder = none → feeder = [0xFF, 0xFF]) → (∀ c : Channel, y.feeder = some c → feeder = be16 (32768 + c.val)) →
            data = first ++ feeder ++ [byte y.coilYieldPct] ++ be16 y.storeKw ++ beInt y.storeTemp ++ behind ++ totals) ∧
    (f.kind = 0x14 → f.payload.length = 1 →
      (4 ≤ readByte f.payload 0 → exec .readProg s = .next (s.refused f rest .range)) ∧
      ∀ (i : SlotId) (x : ProgSlot), i.val = readByte f.payload 0 → x = s.slot i → ∃ data : List Byte,
        data.length = 24 + x.results.length ∧ (s.storeBounded → data.length = 24 + x.steps.length) ∧
        exec .readProg s = .next ((s.dequeue rest).answered f ⟨.done, data⟩) ∧ data[0]? = some (byte i.val) ∧
        ∀ (state phase position : Byte) (settings step : List Byte),
          (x.state = .empty → state = 0) → (x.state = .loaded → state = 1) → (x.state = .waiting → state = 2) →
          (x.state = .running → state = 3) → (x.state = .done → state = 4) → (x.state = .faulted → state = 5) →
          (x.state = .stopped → state = 6) →
          (x.state = .empty → settings = List.replicate 10 0) →
          (x.state ≠ .empty → settings = [byte x.steps.length, byte x.loops] ++ be16Opt x.start ++ be16 x.intervalMin ++
            [flagByte x.continueOnFault, byte x.loopsLeft] ++ be16 x.loopStart) →
          (x.phase = .claiming → phase = 1) → (x.phase = .reaching → phase = 2) → (x.phase = .holding → phase = 3) →
          (x.currentStep = none → position = 0xFF) →
          (∀ st : Step, x.currentStep = some st →
            ((∃ h : Holder, (s.claim st.channel).holder = some h ∧ h.slot = i) → position = 0) ∧
            ∀ k : Nat, (∀ h : Holder, (s.claim st.channel).holder = some h → h.slot ≠ i) →
              (s.claim st.channel).waiters[k]? = some i → i ∉ (s.claim st.channel).waiters.take k → position = byte (k + 1)) →
          (∀ st : Step, x.currentStep = some st → (∃ h : Holder, (s.claim st.channel).holder = some h ∧ h.slot = i) ∨
            i ∈ (s.claim st.channel).waiters) →
          (x.phase = .none → step = [byte x.curStep, 0, 0xFF, 0xFF, 0xFF, 0xFF, 0xFF, 0]) →
          (x.phase ≠ .none → step = [byte x.curStep, phase, position] ++ be16Opt x.reach ++ be16Opt x.hold ++ [byte x.dips]) →
          ∃ results : List Byte, results.length = x.results.length ∧
            (∀ k : Nat, (x.results[k]? = some .notRun → results[k]? = some 0) ∧
              (x.results[k]? = some .passed → results[k]? = some 1) ∧
              (x.results[k]? = some (.failed .timeout) → results[k]? = some 2) ∧
              (x.results[k]? = some (.failed .unstable) → results[k]? = some 3) ∧
              (x.results[k]? = some (.failed .barred) → results[k]? = some 4) ∧
              (x.results[k]? = some (.failed .handoff) → results[k]? = some 5) ∧
              (x.results[k]? = some (.failed .travel) → results[k]? = some 6) ∧
              (x.results[k]? = some (.failed .sensor) → results[k]? = some 7) ∧
              (x.results[k]? = some (.failed .noOutlet) → results[k]? = some 8) ∧
              (x.results[k]? = some (.failed .feeder) → results[k]? = some 9)) ∧
            data = [byte i.val, state, byte s.freeSteps] ++ settings ++ be16Opt x.waitMinute ++ step ++
              [flagByte x.faultsSeen] ++ results) ∧
    (f.kind = 0x15 → f.payload.length = 2 →
      ((50 < readByte f.payload 0 ∨ readByte f.payload 1 = 0 ∨ 24 < readByte f.payload 1 ∨
          51 < readByte f.payload 0 + readByte f.payload 1) →
        exec .readSensors s = .next (s.refused f rest .range)) ∧
      (1 ≤ readByte f.payload 1 → readByte f.payload 1 ≤ 24 → readByte f.payload 0 + readByte f.payload 1 ≤ 51 →
        ∃ data : List Byte, data.length = 4 + 3 * readByte f.payload 1 ∧
          exec .readSensors s = .next ((s.dequeue rest).answered f ⟨.done, data⟩) ∧
          readWord data 0 = s.clock.minute % 65536 ∧ data[2]? = some (byte s.clock.second) ∧
          data[3]? = some (if s.clock.isSet = true then 1 else 0) ∧
          ∀ (k : Nat) (i : InputId), k < readByte f.payload 1 → i.val = readByte f.payload 0 + k →
            ((readWord data (4 + 3 * k) : Nat) : Int) = (s.sensor i).lastGood % 65536 ∧
            ((s.sensor i).badRun < 4 → (s.sensor i).goodRun < 4 → readByte data (6 + 3 * k) =
              (s.sensor i).faulted.toNat + 2 * (s.sensor i).badRun + 8 * (s.sensor i).goodRun))) ∧
    (f.kind = 0x17 → f.payload = [] → ∃ data : List Byte, data.length = 88 ∧
      exec .readStatus s = .next ((s.dequeue rest).answered f ⟨.done, data⟩) ∧ data[0]? = some s.link.notices ∧
      data[1]? = some s.link.mask ∧
      (s.link.speed = .b19200 → data[2]? = some 0) ∧ (s.link.speed = .b57600 → data[2]? = some 1) ∧
      (s.link.speed = .b115200 → data[2]? = some 2) ∧ (s.link.speed = .b230400 → data[2]? = some 3) ∧
      (∀ b : BankId, (readByte data 3).testBit b.val = s.handoff.handedOff.get b) ∧ readByte data 3 < 64 ∧
      (∀ c : Channel, (s.outlet c = none → data[4 + c.val]? = some 0) ∧
        ∀ o : Outlet, s.outlet c = some o → (o.lastFault = none → data[4 + c.val]? = some 0) ∧
          (o.lastFault = some .noClosedLimit → data[4 + c.val]? = some 1) ∧
          (o.lastFault = some .noOpenLimit → data[4 + c.val]? = some 2) ∧
          (o.lastFault = some .stuck → data[4 + c.val]? = some 3) ∧
          (o.lastFault = some .bothLimits → data[4 + c.val]? = some 4)) ∧
      ∀ (i : Fin 4) (r : BranchRange), r = s.xlat.ranges.get i → (data.drop (52 + 9 * i.val)).take 9 =
        [byte i.val, flagByte r.enable] ++ be16 r.base ++ be16 r.size ++
          [flagByte r.mapped, byte r.chanBase, byte r.mapBase])

/-! ### Invariants that every step keeps -/

/-- The request queue never holds more than 4 frames (R179), and the transmit order, with the NOTICE frames the kinds not
pending could still add, never more than 16 (R182), whatever command a step takes. -/
def Obligations.StepKeepsLinkBounded : Prop :=
  ∀ s t : State, s.linkBounded → step s = .next t → t.linkBounded

/-- Every frame that waits in either direction has a LEN of 2 to 120 (R177), the store never holds more than 64 steps and a slot
never more than 32 (R136, R139), whatever command a step takes; and of the claims: no claim queue holds a slot twice or the slot
that holds the claim, each of these slots is in the step that the claim or entry is for, and a step's timers run, and the gap
timer runs, only where 8.1 lets them (R144 to R146). -/
def Obligations.StepKeepsFramesAndStore : Prop :=
  ∀ s t : State, step s = .next t →
    (s.framesFit → s.storeBounded → t.framesFit ∧ t.storeBounded) ∧ (s.claimsRight → t.claimsRight)

/-- The enabled ranges never overlap and keep a valid geometry (R168, R171), the log never holds more than 32 entries (R89), and
every input record and the clock stay within their ranges (R160, R164), whatever command a step takes. -/
def Obligations.StepKeepsRecordsInRange : Prop :=
  ∀ s t : State, s.rangesApart → s.logBounded → s.scannerInRange → step s = .next t →
    t.rangesApart ∧ t.logBounded ∧ t.scannerInRange

/-- GRANT is 0 outside the eligible states and in a disabled pool (R5, R31), ASSUMED_DRAW is 0 in the eligible states and in
LOCKED (R18, R22), and a disabled pool has no running round timer, whatever command a step takes. -/
def Obligations.StepKeepsGrantsRight : Prop :=
  ∀ s t : State, s.grantsRight → step s = .next t → t.grantsRight

/-- At most eight channels drive at a time (R102), and every position record stays within the ranges of 6.1, whatever command a
step takes; and the motion queue holds each channel at most once, and never one that drives (R100); and while a bank is handed
off its channels are still, unqueued, and without pause or homing request, and its outlets are HELD, FAULTED or UNCONFIGURED
(R130, R132). -/
def Obligations.StepKeepsDriveInRange : Prop :=
  ∀ s t : State, step s = .next t →
    (s.drivesBounded → s.positionsInRange → t.drivesBounded ∧ t.positionsInRange) ∧ (s.queueRight → t.queueRight) ∧
    (s.handoffRight → t.handoffRight)
end

