-- ==== Sys2Proof/Laws/Table.lean ====
section
/-! SUPPORT. Laws of the fixed-size table, of the list of indices and of sums over it. -/

namespace Sys2Proof

namespace Table

variable {α β : Type} {n : Nat}

/-- The record of an index is the list's element at that place. -/
theorem get_eq (t : Table α n) (i : Fin n) : t.get i = t.toList[i.val]'(by rw [t.size_eq]; exact i.isLt) := rfl

@[simp] theorem get_set_same (t : Table α n) (i : Fin n) (x : α) : (t.set i x).get i = x := by
  rw [get_eq]
  exact List.getElem_set_self _

theorem get_set_other (t : Table α n) {i j : Fin n} (h : i ≠ j) (x : α) : (t.set i x).get j = t.get j := by
  have hv : i.val ≠ j.val := fun e => h (Fin.ext e)
  rw [get_eq, get_eq]
  exact List.getElem_set_ne hv _

theorem get_set (t : Table α n) (i j : Fin n) (x : α) : (t.set i x).get j = if i = j then x else t.get j := by
  by_cases h : i = j
  · subst h; simp
  · simp [h, get_set_other]

@[simp] theorem get_map (f : α → β) (t : Table α n) (i : Fin n) : (t.map f).get i = f (t.get i) := by
  rw [get_eq, get_eq]
  exact List.getElem_map _

@[simp] theorem get_fill (x : α) (i : Fin n) : (Table.fill n x).get i = x := by
  simp [Table.get, Table.fill]

/-- Two tables that agree at every index are equal. -/
theorem ext_get {s t : Table α n} (h : ∀ i, s.get i = t.get i) : s = t := by
  cases s with
  | mk ls hs =>
    cases t with
    | mk lt ht =>
      congr
      apply List.ext_getElem
      · rw [hs, ht]
      · intro k hk _
        have := h ⟨k, hs ▸ hk⟩
        simpa [Table.get] using this

@[simp] theorem set_get (t : Table α n) (i : Fin n) : t.set i (t.get i) = t := by
  apply ext_get
  intro j
  rw [get_set]
  split
  · next h => rw [h]
  · rfl

@[simp] theorem set_set (t : Table α n) (i : Fin n) (x y : α) : (t.set i x).set i y = t.set i y := by
  apply ext_get
  intro j
  simp only [get_set]
  split <;> rfl

end Table

@[simp] theorem mem_indices {n : Nat} (i : Fin n) : i ∈ indices n := by
  unfold indices
  rw [List.mem_filterMap]
  exact ⟨i.val, by simp⟩

/-- The list of indices is the list of all elements of `Fin n`, in order. -/
theorem indices_eq_finRange (n : Nat) : indices n = List.finRange n := by
  apply List.ext_getElem
  · have h : ∀ l : List Nat, (∀ x ∈ l, x < n) →
        (l.filterMap fun i => if h : i < n then some (⟨i, h⟩ : Fin n) else none).length = l.length := by
      intro l
      induction l with
      | nil => simp
      | cons a l ih =>
        intro hl
        have ha : a < n := hl a (by simp)
        simp [ha, ih (fun x hx => hl x (by simp [hx]))]
    simp [indices, h (List.range n) (fun x hx => by simpa using hx)]
  · intro k h₁ h₂
    have h : ∀ l : List Nat, ∀ hl : (∀ x ∈ l, x < n), ∀ (k : Nat) (h₁ : k < _) (h₂ : k < l.length),
        ((l.filterMap fun i => if h : i < n then some (⟨i, h⟩ : Fin n) else none)[k]'h₁).val = l[k] := by
      intro l
      induction l with
      | nil => simp
      | cons a l ih =>
        intro hl k h₁ h₂
        have ha : a < n := hl a (by simp)
        cases k with
        | zero => simp [ha]
        | succ k => simpa [ha] using ih (fun x hx => hl x (by simp [hx])) k (by simpa [ha] using h₁) (by simpa using h₂)
    apply Fin.ext
    have := h (List.range n) (fun x hx => by simpa using hx) k h₁ (by simpa using h₂)
    rw [List.getElem_finRange]
    rw [List.getElem_range] at this
    exact this

theorem indices_nodup (n : Nat) : (indices n).Nodup := by
  rw [indices_eq_finRange]
  exact List.nodup_finRange n

end Sys2Proof
end

