-- ==== Sys2Proof/Laws/State.lean ====
section
/-! SUPPORT. What one update of the state leaves of every field and of every record: one lemma per field and record per
update, so that no later proof unfolds a record update. -/

namespace Sys2Proof.Machine

variable (s : State)

/-! ### setOutlet -/

@[simp] theorem State.setOutlet_rstLow (c : Channel) (o : Option Outlet) : (s.setOutlet c o).rstLow = s.rstLow := rfl
@[simp] theorem State.setOutlet_link (c : Channel) (o : Option Outlet) : (s.setOutlet c o).link = s.link := rfl
@[simp] theorem State.setOutlet_xlat (c : Channel) (o : Option Outlet) : (s.setOutlet c o).xlat = s.xlat := rfl
@[simp] theorem State.setOutlet_pools (c : Channel) (o : Option Outlet) : (s.setOutlet c o).pools = s.pools := rfl
@[simp] theorem State.setOutlet_demands (c : Channel) (o : Option Outlet) : (s.setOutlet c o).demands = s.demands := rfl
@[simp] theorem State.setOutlet_curtail (c : Channel) (o : Option Outlet) : (s.setOutlet c o).curtail = s.curtail := rfl
@[simp] theorem State.setOutlet_log (c : Channel) (o : Option Outlet) : (s.setOutlet c o).log = s.log := rfl
@[simp] theorem State.setOutlet_drive (c : Channel) (o : Option Outlet) : (s.setOutlet c o).drive = s.drive := rfl
@[simp] theorem State.setOutlet_handoff (c : Channel) (o : Option Outlet) : (s.setOutlet c o).handoff = s.handoff := rfl
@[simp] theorem State.setOutlet_duty (c : Channel) (o : Option Outlet) : (s.setOutlet c o).duty = s.duty := rfl
@[simp] theorem State.setOutlet_sensors (c : Channel) (o : Option Outlet) : (s.setOutlet c o).sensors = s.sensors := rfl
@[simp] theorem State.setOutlet_clock (c : Channel) (o : Option Outlet) : (s.setOutlet c o).clock = s.clock := rfl
@[simp] theorem State.setOutlet_msPhase (c : Channel) (o : Option Outlet) : (s.setOutlet c o).msPhase = s.msPhase := rfl
@[simp] theorem State.setOutlet_pending (c : Channel) (o : Option Outlet) : (s.setOutlet c o).pending = s.pending := rfl
@[simp] theorem State.setOutlet_demand (c : Channel) (o : Option Outlet) (a : Channel) :
    (s.setOutlet c o).demand a = s.demand a := rfl
@[simp] theorem State.setOutlet_curtailment (c : Channel) (o : Option Outlet) (a : Channel) :
    (s.setOutlet c o).curtailment a = s.curtailment a := rfl
@[simp] theorem State.setOutlet_pool (c : Channel) (o : Option Outlet) (a : Pool) :
    (s.setOutlet c o).pool a = s.pool a := rfl
@[simp] theorem State.setOutlet_hwPart (c : Channel) (o : Option Outlet) (a : HwPool) :
    (s.setOutlet c o).hwPart a = s.hwPart a := rfl
@[simp] theorem State.setOutlet_position (c : Channel) (o : Option Outlet) (a : Channel) :
    (s.setOutlet c o).position a = s.position a := rfl
@[simp] theorem State.setOutlet_slot (c : Channel) (o : Option Outlet) (a : SlotId) :
    (s.setOutlet c o).slot a = s.slot a := rfl
@[simp] theorem State.setOutlet_claim (c : Channel) (o : Option Outlet) (a : Channel) :
    (s.setOutlet c o).claim a = s.claim a := rfl
@[simp] theorem State.setOutlet_sensor (c : Channel) (o : Option Outlet) (a : InputId) :
    (s.setOutlet c o).sensor a = s.sensor a := rfl
@[simp] theorem State.setOutlet_handedOff (c : Channel) (o : Option Outlet) (a : Channel) :
    (s.setOutlet c o).handedOff a = s.handedOff a := rfl
@[simp] theorem State.setOutlet_climActive (c : Channel) (o : Option Outlet) (a : Channel) :
    (s.setOutlet c o).climActive a = s.climActive a := rfl
@[simp] theorem State.setOutlet_olimActive (c : Channel) (o : Option Outlet) (a : Channel) :
    (s.setOutlet c o).olimActive a = s.olimActive a := rfl
@[simp] theorem State.setOutlet_freeSteps (c : Channel) (o : Option Outlet) :
    (s.setOutlet c o).freeSteps = s.freeSteps := rfl
@[simp] theorem State.setOutlet_slotsHeld (c : Channel) (o : Option Outlet) :
    (s.setOutlet c o).slotsHeld = s.slotsHeld := rfl

/-! ### modifyOutlet -/

@[simp] theorem State.modifyOutlet_rstLow (c : Channel) (f : Outlet → Outlet) : (s.modifyOutlet c f).rstLow = s.rstLow := rfl
@[simp] theorem State.modifyOutlet_link (c : Channel) (f : Outlet → Outlet) : (s.modifyOutlet c f).link = s.link := rfl
@[simp] theorem State.modifyOutlet_xlat (c : Channel) (f : Outlet → Outlet) : (s.modifyOutlet c f).xlat = s.xlat := rfl
@[simp] theorem State.modifyOutlet_pools (c : Channel) (f : Outlet → Outlet) : (s.modifyOutlet c f).pools = s.pools := rfl
@[simp] theorem State.modifyOutlet_demands (c : Channel) (f : Outlet → Outlet) : (s.modifyOutlet c f).demands = s.demands := rfl
@[simp] theorem State.modifyOutlet_curtail (c : Channel) (f : Outlet → Outlet) : (s.modifyOutlet c f).curtail = s.curtail := rfl
@[simp] theorem State.modifyOutlet_log (c : Channel) (f : Outlet → Outlet) : (s.modifyOutlet c f).log = s.log := rfl
@[simp] theorem State.modifyOutlet_drive (c : Channel) (f : Outlet → Outlet) : (s.modifyOutlet c f).drive = s.drive := rfl
@[simp] theorem State.modifyOutlet_handoff (c : Channel) (f : Outlet → Outlet) : (s.modifyOutlet c f).handoff = s.handoff := rfl
@[simp] theorem State.modifyOutlet_duty (c : Channel) (f : Outlet → Outlet) : (s.modifyOutlet c f).duty = s.duty := rfl
@[simp] theorem State.modifyOutlet_sensors (c : Channel) (f : Outlet → Outlet) : (s.modifyOutlet c f).sensors = s.sensors := rfl
@[simp] theorem State.modifyOutlet_clock (c : Channel) (f : Outlet → Outlet) : (s.modifyOutlet c f).clock = s.clock := rfl
@[simp] theorem State.modifyOutlet_msPhase (c : Channel) (f : Outlet → Outlet) : (s.modifyOutlet c f).msPhase = s.msPhase := rfl
@[simp] theorem State.modifyOutlet_pending (c : Channel) (f : Outlet → Outlet) : (s.modifyOutlet c f).pending = s.pending := rfl
@[simp] theorem State.modifyOutlet_demand (c : Channel) (f : Outlet → Outlet) (a : Channel) :
    (s.modifyOutlet c f).demand a = s.demand a := rfl
@[simp] theorem State.modifyOutlet_curtailment (c : Channel) (f : Outlet → Outlet) (a : Channel) :
    (s.modifyOutlet c f).curtailment a = s.curtailment a := rfl
@[simp] theorem State.modifyOutlet_pool (c : Channel) (f : Outlet → Outlet) (a : Pool) :
    (s.modifyOutlet c f).pool a = s.pool a := rfl
@[simp] theorem State.modifyOutlet_hwPart (c : Channel) (f : Outlet → Outlet) (a : HwPool) :
    (s.modifyOutlet c f).hwPart a = s.hwPart a := rfl
@[simp] theorem State.modifyOutlet_position (c : Channel) (f : Outlet → Outlet) (a : Channel) :
    (s.modifyOutlet c f).position a = s.position a := rfl
@[simp] theorem State.modifyOutlet_slot (c : Channel) (f : Outlet → Outlet) (a : SlotId) :
    (s.modifyOutlet c f).slot a = s.slot a := rfl
@[simp] theorem State.modifyOutlet_claim (c : Channel) (f : Outlet → Outlet) (a : Channel) :
    (s.modifyOutlet c f).claim a = s.claim a := rfl
@[simp] theorem State.modifyOutlet_sensor (c : Channel) (f : Outlet → Outlet) (a : InputId) :
    (s.modifyOutlet c f).sensor a = s.sensor a := rfl
@[simp] theorem State.modifyOutlet_handedOff (c : Channel) (f : Outlet → Outlet) (a : Channel) :
    (s.modifyOutlet c f).handedOff a = s.handedOff a := rfl
@[simp] theorem State.modifyOutlet_climActive (c : Channel) (f : Outlet → Outlet) (a : Channel) :
    (s.modifyOutlet c f).climActive a = s.climActive a := rfl
@[simp] theorem State.modifyOutlet_olimActive (c : Channel) (f : Outlet → Outlet) (a : Channel) :
    (s.modifyOutlet c f).olimActive a = s.olimActive a := rfl
@[simp] theorem State.modifyOutlet_freeSteps (c : Channel) (f : Outlet → Outlet) :
    (s.modifyOutlet c f).freeSteps = s.freeSteps := rfl
@[simp] theorem State.modifyOutlet_slotsHeld (c : Channel) (f : Outlet → Outlet) :
    (s.modifyOutlet c f).slotsHeld = s.slotsHeld := rfl

/-! ### setDemand -/

@[simp] theorem State.setDemand_rstLow (c : Channel) (d : HostDemand) : (s.setDemand c d).rstLow = s.rstLow := rfl
@[simp] theorem State.setDemand_link (c : Channel) (d : HostDemand) : (s.setDemand c d).link = s.link := rfl
@[simp] theorem State.setDemand_xlat (c : Channel) (d : HostDemand) : (s.setDemand c d).xlat = s.xlat := rfl
@[simp] theorem State.setDemand_outlets (c : Channel) (d : HostDemand) : (s.setDemand c d).outlets = s.outlets := rfl
@[simp] theorem State.setDemand_pools (c : Channel) (d : HostDemand) : (s.setDemand c d).pools = s.pools := rfl
@[simp] theorem State.setDemand_curtail (c : Channel) (d : HostDemand) : (s.setDemand c d).curtail = s.curtail := rfl
@[simp] theorem State.setDemand_log (c : Channel) (d : HostDemand) : (s.setDemand c d).log = s.log := rfl
@[simp] theorem State.setDemand_drive (c : Channel) (d : HostDemand) : (s.setDemand c d).drive = s.drive := rfl
@[simp] theorem State.setDemand_handoff (c : Channel) (d : HostDemand) : (s.setDemand c d).handoff = s.handoff := rfl
@[simp] theorem State.setDemand_duty (c : Channel) (d : HostDemand) : (s.setDemand c d).duty = s.duty := rfl
@[simp] theorem State.setDemand_sensors (c : Channel) (d : HostDemand) : (s.setDemand c d).sensors = s.sensors := rfl
@[simp] theorem State.setDemand_clock (c : Channel) (d : HostDemand) : (s.setDemand c d).clock = s.clock := rfl
@[simp] theorem State.setDemand_msPhase (c : Channel) (d : HostDemand) : (s.setDemand c d).msPhase = s.msPhase := rfl
@[simp] theorem State.setDemand_pending (c : Channel) (d : HostDemand) : (s.setDemand c d).pending = s.pending := rfl
@[simp] theorem State.setDemand_outlet (c : Channel) (d : HostDemand) (a : Channel) :
    (s.setDemand c d).outlet a = s.outlet a := rfl
@[simp] theorem State.setDemand_curtailment (c : Channel) (d : HostDemand) (a : Channel) :
    (s.setDemand c d).curtailment a = s.curtailment a := rfl
@[simp] theorem State.setDemand_pool (c : Channel) (d : HostDemand) (a : Pool) :
    (s.setDemand c d).pool a = s.pool a := rfl
@[simp] theorem State.setDemand_hwPart (c : Channel) (d : HostDemand) (a : HwPool) :
    (s.setDemand c d).hwPart a = s.hwPart a := rfl
@[simp] theorem State.setDemand_position (c : Channel) (d : HostDemand) (a : Channel) :
    (s.setDemand c d).position a = s.position a := rfl
@[simp] theorem State.setDemand_slot (c : Channel) (d : HostDemand) (a : SlotId) :
    (s.setDemand c d).slot a = s.slot a := rfl
@[simp] theorem State.setDemand_claim (c : Channel) (d : HostDemand) (a : Channel) :
    (s.setDemand c d).claim a = s.claim a := rfl
@[simp] theorem State.setDemand_sensor (c : Channel) (d : HostDemand) (a : InputId) :
    (s.setDemand c d).sensor a = s.sensor a := rfl
@[simp] theorem State.setDemand_handedOff (c : Channel) (d : HostDemand) (a : Channel) :
    (s.setDemand c d).handedOff a = s.handedOff a := rfl
@[simp] theorem State.setDemand_climActive (c : Channel) (d : HostDemand) (a : Channel) :
    (s.setDemand c d).climActive a = s.climActive a := rfl
@[simp] theorem State.setDemand_olimActive (c : Channel) (d : HostDemand) (a : Channel) :
    (s.setDemand c d).olimActive a = s.olimActive a := rfl
@[simp] theorem State.setDemand_freeSteps (c : Channel) (d : HostDemand) :
    (s.setDemand c d).freeSteps = s.freeSteps := rfl
@[simp] theorem State.setDemand_slotsHeld (c : Channel) (d : HostDemand) :
    (s.setDemand c d).slotsHeld = s.slotsHeld := rfl
@[simp] theorem State.setDemand_isEligible (c : Channel) (d : HostDemand) (a : Channel) :
    (s.setDemand c d).isEligible a = s.isEligible a := rfl

/-! ### setCurtailment -/

@[simp] theorem State.setCurtailment_rstLow (c : Channel) (x : Curtailment) : (s.setCurtailment c x).rstLow = s.rstLow := rfl
@[simp] theorem State.setCurtailment_link (c : Channel) (x : Curtailment) : (s.setCurtailment c x).link = s.link := rfl
@[simp] theorem State.setCurtailment_xlat (c : Channel) (x : Curtailment) : (s.setCurtailment c x).xlat = s.xlat := rfl
@[simp] theorem State.setCurtailment_outlets (c : Channel) (x : Curtailment) : (s.setCurtailment c x).outlets = s.outlets := rfl
@[simp] theorem State.setCurtailment_pools (c : Channel) (x : Curtailment) : (s.setCurtailment c x).pools = s.pools := rfl
@[simp] theorem State.setCurtailment_demands (c : Channel) (x : Curtailment) : (s.setCurtailment c x).demands = s.demands := rfl
@[simp] theorem State.setCurtailment_log (c : Channel) (x : Curtailment) : (s.setCurtailment c x).log = s.log := rfl
@[simp] theorem State.setCurtailment_drive (c : Channel) (x : Curtailment) : (s.setCurtailment c x).drive = s.drive := rfl
@[simp] theorem State.setCurtailment_handoff (c : Channel) (x : Curtailment) : (s.setCurtailment c x).handoff = s.handoff := rfl
@[simp] theorem State.setCurtailment_duty (c : Channel) (x : Curtailment) : (s.setCurtailment c x).duty = s.duty := rfl
@[simp] theorem State.setCurtailment_sensors (c : Channel) (x : Curtailment) : (s.setCurtailment c x).sensors = s.sensors := rfl
@[simp] theorem State.setCurtailment_clock (c : Channel) (x : Curtailment) : (s.setCurtailment c x).clock = s.clock := rfl
@[simp] theorem State.setCurtailment_msPhase (c : Channel) (x : Curtailment) : (s.setCurtailment c x).msPhase = s.msPhase := rfl
@[simp] theorem State.setCurtailment_pending (c : Channel) (x : Curtailment) : (s.setCurtailment c x).pending = s.pending := rfl
@[simp] theorem State.setCurtailment_outlet (c : Channel) (x : Curtailment) (a : Channel) :
    (s.setCurtailment c x).outlet a = s.outlet a := rfl
@[simp] theorem State.setCurtailment_demand (c : Channel) (x : Curtailment) (a : Channel) :
    (s.setCurtailment c x).demand a = s.demand a := rfl
@[simp] theorem State.setCurtailment_pool (c : Channel) (x : Curtailment) (a : Pool) :
    (s.setCurtailment c x).pool a = s.pool a := rfl
@[simp] theorem State.setCurtailment_hwPart (c : Channel) (x : Curtailment) (a : HwPool) :
    (s.setCurtailment c x).hwPart a = s.hwPart a := rfl
@[simp] theorem State.setCurtailment_position (c : Channel) (x : Curtailment) (a : Channel) :
    (s.setCurtailment c x).position a = s.position a := rfl
@[simp] theorem State.setCurtailment_slot (c : Channel) (x : Curtailment) (a : SlotId) :
    (s.setCurtailment c x).slot a = s.slot a := rfl
@[simp] theorem State.setCurtailment_claim (c : Channel) (x : Curtailment) (a : Channel) :
    (s.setCurtailment c x).claim a = s.claim a := rfl
@[simp] theorem State.setCurtailment_sensor (c : Channel) (x : Curtailment) (a : InputId) :
    (s.setCurtailment c x).sensor a = s.sensor a := rfl
@[simp] theorem State.setCurtailment_handedOff (c : Channel) (x : Curtailment) (a : Channel) :
    (s.setCurtailment c x).handedOff a = s.handedOff a := rfl
@[simp] theorem State.setCurtailment_climActive (c : Channel) (x : Curtailment) (a : Channel) :
    (s.setCurtailment c x).climActive a = s.climActive a := rfl
@[simp] theorem State.setCurtailment_olimActive (c : Channel) (x : Curtailment) (a : Channel) :
    (s.setCurtailment c x).olimActive a = s.olimActive a := rfl
@[simp] theorem State.setCurtailment_freeSteps (c : Channel) (x : Curtailment) :
    (s.setCurtailment c x).freeSteps = s.freeSteps := rfl
@[simp] theorem State.setCurtailment_slotsHeld (c : Channel) (x : Curtailment) :
    (s.setCurtailment c x).slotsHeld = s.slotsHeld := rfl
@[simp] theorem State.setCurtailment_isEligible (c : Channel) (x : Curtailment) (a : Channel) :
    (s.setCurtailment c x).isEligible a = s.isEligible a := rfl

/-! ### setPool -/

@[simp] theorem State.setPool_rstLow (p : Pool) (r : PoolRecord) : (s.setPool p r).rstLow = s.rstLow := by
  cases p with
  | steam => rfl
  | hw h => cases h <;> rfl
@[simp] theorem State.setPool_link (p : Pool) (r : PoolRecord) : (s.setPool p r).link = s.link := by
  cases p with
  | steam => rfl
  | hw h => cases h <;> rfl
@[simp] theorem State.setPool_xlat (p : Pool) (r : PoolRecord) : (s.setPool p r).xlat = s.xlat := by
  cases p with
  | steam => rfl
  | hw h => cases h <;> rfl
@[simp] theorem State.setPool_outlets (p : Pool) (r : PoolRecord) : (s.setPool p r).outlets = s.outlets := by
  cases p with
  | steam => rfl
  | hw h => cases h <;> rfl
@[simp] theorem State.setPool_demands (p : Pool) (r : PoolRecord) : (s.setPool p r).demands = s.demands := by
  cases p with
  | steam => rfl
  | hw h => cases h <;> rfl
@[simp] theorem State.setPool_curtail (p : Pool) (r : PoolRecord) : (s.setPool p r).curtail = s.curtail := by
  cases p with
  | steam => rfl
  | hw h => cases h <;> rfl
@[simp] theorem State.setPool_log (p : Pool) (r : PoolRecord) : (s.setPool p r).log = s.log := by
  cases p with
  | steam => rfl
  | hw h => cases h <;> rfl
@[simp] theorem State.setPool_drive (p : Pool) (r : PoolRecord) : (s.setPool p r).drive = s.drive := by
  cases p with
  | steam => rfl
  | hw h => cases h <;> rfl
@[simp] theorem State.setPool_handoff (p : Pool) (r : PoolRecord) : (s.setPool p r).handoff = s.handoff := by
  cases p with
  | steam => rfl
  | hw h => cases h <;> rfl
@[simp] theorem State.setPool_duty (p : Pool) (r : PoolRecord) : (s.setPool p r).duty = s.duty := by
  cases p with
  | steam => rfl
  | hw h => cases h <;> rfl
@[simp] theorem State.setPool_sensors (p : Pool) (r : PoolRecord) : (s.setPool p r).sensors = s.sensors := by
  cases p with
  | steam => rfl
  | hw h => cases h <;> rfl
@[simp] theorem State.setPool_clock (p : Pool) (r : PoolRecord) : (s.setPool p r).clock = s.clock := by
  cases p with
  | steam => rfl
  | hw h => cases h <;> rfl
@[simp] theorem State.setPool_msPhase (p : Pool) (r : PoolRecord) : (s.setPool p r).msPhase = s.msPhase := by
  cases p with
  | steam => rfl
  | hw h => cases h <;> rfl
@[simp] theorem State.setPool_pending (p : Pool) (r : PoolRecord) : (s.setPool p r).pending = s.pending := by
  cases p with
  | steam => rfl
  | hw h => cases h <;> rfl
@[simp] theorem State.setPool_outlet (p : Pool) (r : PoolRecord) (a : Channel) :
    (s.setPool p r).outlet a = s.outlet a := by
  cases p with
  | steam => rfl
  | hw h => cases h <;> rfl
@[simp] theorem State.setPool_demand (p : Pool) (r : PoolRecord) (a : Channel) :
    (s.setPool p r).demand a = s.demand a := by
  cases p with
  | steam => rfl
  | hw h => cases h <;> rfl
@[simp] theorem State.setPool_curtailment (p : Pool) (r : PoolRecord) (a : Channel) :
    (s.setPool p r).curtailment a = s.curtailment a := by
  cases p with
  | steam => rfl
  | hw h => cases h <;> rfl
@[simp] theorem State.setPool_hwPart (p : Pool) (r : PoolRecord) (a : HwPool) :
    (s.setPool p r).hwPart a = s.hwPart a := by
  cases p with
  | steam => cases a <;> rfl
  | hw h => cases h <;> cases a <;> rfl
@[simp] theorem State.setPool_position (p : Pool) (r : PoolRecord) (a : Channel) :
    (s.setPool p r).position a = s.position a := by
  cases p with
  | steam => rfl
  | hw h => cases h <;> rfl
@[simp] theorem State.setPool_slot (p : Pool) (r : PoolRecord) (a : SlotId) :
    (s.setPool p r).slot a = s.slot a := by
  cases p with
  | steam => rfl
  | hw h => cases h <;> rfl
@[simp] theorem State.setPool_claim (p : Pool) (r : PoolRecord) (a : Channel) :
    (s.setPool p r).claim a = s.claim a := by
  cases p with
  | steam => rfl
  | hw h => cases h <;> rfl
@[simp] theorem State.setPool_sensor (p : Pool) (r : PoolRecord) (a : InputId) :
    (s.setPool p r).sensor a = s.sensor a := by
  cases p with
  | steam => rfl
  | hw h => cases h <;> rfl
@[simp] theorem State.setPool_handedOff (p : Pool) (r : PoolRecord) (a : Channel) :
    (s.setPool p r).handedOff a = s.handedOff a := by
  cases p with
  | steam => rfl
  | hw h => cases h <;> rfl
@[simp] theorem State.setPool_climActive (p : Pool) (r : PoolRecord) (a : Channel) :
    (s.setPool p r).climActive a = s.climActive a := by
  cases p with
  | steam => rfl
  | hw h => cases h <;> rfl
@[simp] theorem State.setPool_olimActive (p : Pool) (r : PoolRecord) (a : Channel) :
    (s.setPool p r).olimActive a = s.olimActive a := by
  cases p with
  | steam => rfl
  | hw h => cases h <;> rfl
@[simp] theorem State.setPool_freeSteps (p : Pool) (r : PoolRecord) :
    (s.setPool p r).freeSteps = s.freeSteps := by
  cases p with
  | steam => rfl
  | hw h => cases h <;> rfl
@[simp] theorem State.setPool_slotsHeld (p : Pool) (r : PoolRecord) :
    (s.setPool p r).slotsHeld = s.slotsHeld := by
  cases p with
  | steam => rfl
  | hw h => cases h <;> rfl
@[simp] theorem State.setPool_isEligible (p : Pool) (r : PoolRecord) (a : Channel) :
    (s.setPool p r).isEligible a = s.isEligible a := by
  cases p with
  | steam => rfl
  | hw h => cases h <;> rfl

/-! ### setHwPart -/

@[simp] theorem State.setHwPart_rstLow (h : HwPool) (r : HwPart) : (s.setHwPart h r).rstLow = s.rstLow := by
  cases h <;> rfl
@[simp] theorem State.setHwPart_link (h : HwPool) (r : HwPart) : (s.setHwPart h r).link = s.link := by
  cases h <;> rfl
@[simp] theorem State.setHwPart_xlat (h : HwPool) (r : HwPart) : (s.setHwPart h r).xlat = s.xlat := by
  cases h <;> rfl
@[simp] theorem State.setHwPart_outlets (h : HwPool) (r : HwPart) : (s.setHwPart h r).outlets = s.outlets := by
  cases h <;> rfl
@[simp] theorem State.setHwPart_demands (h : HwPool) (r : HwPart) : (s.setHwPart h r).demands = s.demands := by
  cases h <;> rfl
@[simp] theorem State.setHwPart_curtail (h : HwPool) (r : HwPart) : (s.setHwPart h r).curtail = s.curtail := by
  cases h <;> rfl
@[simp] theorem State.setHwPart_log (h : HwPool) (r : HwPart) : (s.setHwPart h r).log = s.log := by
  cases h <;> rfl
@[simp] theorem State.setHwPart_drive (h : HwPool) (r : HwPart) : (s.setHwPart h r).drive = s.drive := by
  cases h <;> rfl
@[simp] theorem State.setHwPart_handoff (h : HwPool) (r : HwPart) : (s.setHwPart h r).handoff = s.handoff := by
  cases h <;> rfl
@[simp] theorem State.setHwPart_duty (h : HwPool) (r : HwPart) : (s.setHwPart h r).duty = s.duty := by
  cases h <;> rfl
@[simp] theorem State.setHwPart_sensors (h : HwPool) (r : HwPart) : (s.setHwPart h r).sensors = s.sensors := by
  cases h <;> rfl
@[simp] theorem State.setHwPart_clock (h : HwPool) (r : HwPart) : (s.setHwPart h r).clock = s.clock := by
  cases h <;> rfl
@[simp] theorem State.setHwPart_msPhase (h : HwPool) (r : HwPart) : (s.setHwPart h r).msPhase = s.msPhase := by
  cases h <;> rfl
@[simp] theorem State.setHwPart_pending (h : HwPool) (r : HwPart) : (s.setHwPart h r).pending = s.pending := by
  cases h <;> rfl
@[simp] theorem State.setHwPart_outlet (h : HwPool) (r : HwPart) (a : Channel) :
    (s.setHwPart h r).outlet a = s.outlet a := by
  cases h <;> rfl
@[simp] theorem State.setHwPart_demand (h : HwPool) (r : HwPart) (a : Channel) :
    (s.setHwPart h r).demand a = s.demand a := by
  cases h <;> rfl
@[simp] theorem State.setHwPart_curtailment (h : HwPool) (r : HwPart) (a : Channel) :
    (s.setHwPart h r).curtailment a = s.curtailment a := by
  cases h <;> rfl
@[simp] theorem State.setHwPart_pool (h : HwPool) (r : HwPart) (a : Pool) :
    (s.setHwPart h r).pool a = s.pool a := by
  cases h <;> cases a with
    | steam => rfl
    | hw k => cases k <;> rfl
@[simp] theorem State.setHwPart_position (h : HwPool) (r : HwPart) (a : Channel) :
    (s.setHwPart h r).position a = s.position a := by
  cases h <;> rfl
@[simp] theorem State.setHwPart_slot (h : HwPool) (r : HwPart) (a : SlotId) :
    (s.setHwPart h r).slot a = s.slot a := by
  cases h <;> rfl
@[simp] theorem State.setHwPart_claim (h : HwPool) (r : HwPart) (a : Channel) :
    (s.setHwPart h r).claim a = s.claim a := by
  cases h <;> rfl
@[simp] theorem State.setHwPart_sensor (h : HwPool) (r : HwPart) (a : InputId) :
    (s.setHwPart h r).sensor a = s.sensor a := by
  cases h <;> rfl
@[simp] theorem State.setHwPart_handedOff (h : HwPool) (r : HwPart) (a : Channel) :
    (s.setHwPart h r).handedOff a = s.handedOff a := by
  cases h <;> rfl
@[simp] theorem State.setHwPart_climActive (h : HwPool) (r : HwPart) (a : Channel) :
    (s.setHwPart h r).climActive a = s.climActive a := by
  cases h <;> rfl
@[simp] theorem State.setHwPart_olimActive (h : HwPool) (r : HwPart) (a : Channel) :
    (s.setHwPart h r).olimActive a = s.olimActive a := by
  cases h <;> rfl
@[simp] theorem State.setHwPart_freeSteps (h : HwPool) (r : HwPart) :
    (s.setHwPart h r).freeSteps = s.freeSteps := by
  cases h <;> rfl
@[simp] theorem State.setHwPart_slotsHeld (h : HwPool) (r : HwPart) :
    (s.setHwPart h r).slotsHeld = s.slotsHeld := by
  cases h <;> rfl
@[simp] theorem State.setHwPart_isEligible (h : HwPool) (r : HwPart) (a : Channel) :
    (s.setHwPart h r).isEligible a = s.isEligible a := by
  cases h <;> rfl

/-! ### setSteamPart -/

@[simp] theorem State.setSteamPart_rstLow (r : SteamPart) : (s.setSteamPart r).rstLow = s.rstLow := rfl
@[simp] theorem State.setSteamPart_link (r : SteamPart) : (s.setSteamPart r).link = s.link := rfl
@[simp] theorem State.setSteamPart_xlat (r : SteamPart) : (s.setSteamPart r).xlat = s.xlat := rfl
@[simp] theorem State.setSteamPart_outlets (r : SteamPart) : (s.setSteamPart r).outlets = s.outlets := rfl
@[simp] theorem State.setSteamPart_demands (r : SteamPart) : (s.setSteamPart r).demands = s.demands := rfl
@[simp] theorem State.setSteamPart_curtail (r : SteamPart) : (s.setSteamPart r).curtail = s.curtail := rfl
@[simp] theorem State.setSteamPart_log (r : SteamPart) : (s.setSteamPart r).log = s.log := rfl
@[simp] theorem State.setSteamPart_drive (r : SteamPart) : (s.setSteamPart r).drive = s.drive := rfl
@[simp] theorem State.setSteamPart_handoff (r : SteamPart) : (s.setSteamPart r).handoff = s.handoff := rfl
@[simp] theorem State.setSteamPart_duty (r : SteamPart) : (s.setSteamPart r).duty = s.duty := rfl
@[simp] theorem State.setSteamPart_sensors (r : SteamPart) : (s.setSteamPart r).sensors = s.sensors := rfl
@[simp] theorem State.setSteamPart_clock (r : SteamPart) : (s.setSteamPart r).clock = s.clock := rfl
@[simp] theorem State.setSteamPart_msPhase (r : SteamPart) : (s.setSteamPart r).msPhase = s.msPhase := rfl
@[simp] theorem State.setSteamPart_pending (r : SteamPart) : (s.setSteamPart r).pending = s.pending := rfl
@[simp] theorem State.setSteamPart_outlet (r : SteamPart) (a : Channel) :
    (s.setSteamPart r).outlet a = s.outlet a := rfl
@[simp] theorem State.setSteamPart_demand (r : SteamPart) (a : Channel) :
    (s.setSteamPart r).demand a = s.demand a := rfl
@[simp] theorem State.setSteamPart_curtailment (r : SteamPart) (a : Channel) :
    (s.setSteamPart r).curtailment a = s.curtailment a := rfl
@[simp] theorem State.setSteamPart_pool (r : SteamPart) (a : Pool) :
    (s.setSteamPart r).pool a = s.pool a := by
  cases a with
  | steam => rfl
  | hw k => cases k <;> rfl
@[simp] theorem State.setSteamPart_hwPart (r : SteamPart) (a : HwPool) :
    (s.setSteamPart r).hwPart a = s.hwPart a := by
  cases a <;> rfl
@[simp] theorem State.setSteamPart_position (r : SteamPart) (a : Channel) :
    (s.setSteamPart r).position a = s.position a := rfl
@[simp] theorem State.setSteamPart_slot (r : SteamPart) (a : SlotId) :
    (s.setSteamPart r).slot a = s.slot a := rfl
@[simp] theorem State.setSteamPart_claim (r : SteamPart) (a : Channel) :
    (s.setSteamPart r).claim a = s.claim a := rfl
@[simp] theorem State.setSteamPart_sensor (r : SteamPart) (a : InputId) :
    (s.setSteamPart r).sensor a = s.sensor a := rfl
@[simp] theorem State.setSteamPart_handedOff (r : SteamPart) (a : Channel) :
    (s.setSteamPart r).handedOff a = s.handedOff a := rfl
@[simp] theorem State.setSteamPart_climActive (r : SteamPart) (a : Channel) :
    (s.setSteamPart r).climActive a = s.climActive a := rfl
@[simp] theorem State.setSteamPart_olimActive (r : SteamPart) (a : Channel) :
    (s.setSteamPart r).olimActive a = s.olimActive a := rfl
@[simp] theorem State.setSteamPart_freeSteps (r : SteamPart) :
    (s.setSteamPart r).freeSteps = s.freeSteps := rfl
@[simp] theorem State.setSteamPart_slotsHeld (r : SteamPart) :
    (s.setSteamPart r).slotsHeld = s.slotsHeld := rfl
@[simp] theorem State.setSteamPart_isEligible (r : SteamPart) (a : Channel) :
    (s.setSteamPart r).isEligible a = s.isEligible a := rfl

/-! ### setPosition -/

@[simp] theorem State.setPosition_rstLow (c : Channel) (p : Position) : (s.setPosition c p).rstLow = s.rstLow := rfl
@[simp] theorem State.setPosition_link (c : Channel) (p : Position) : (s.setPosition c p).link = s.link := rfl
@[simp] theorem State.setPosition_xlat (c : Channel) (p : Position) : (s.setPosition c p).xlat = s.xlat := rfl
@[simp] theorem State.setPosition_outlets (c : Channel) (p : Position) : (s.setPosition c p).outlets = s.outlets := rfl
@[simp] theorem State.setPosition_pools (c : Channel) (p : Position) : (s.setPosition c p).pools = s.pools := rfl
@[simp] theorem State.setPosition_demands (c : Channel) (p : Position) : (s.setPosition c p).demands = s.demands := rfl
@[simp] theorem State.setPosition_curtail (c : Channel) (p : Position) : (s.setPosition c p).curtail = s.curtail := rfl
@[simp] theorem State.setPosition_log (c : Channel) (p : Position) : (s.setPosition c p).log = s.log := rfl
@[simp] theorem State.setPosition_handoff (c : Channel) (p : Position) : (s.setPosition c p).handoff = s.handoff := rfl
@[simp] theorem State.setPosition_duty (c : Channel) (p : Position) : (s.setPosition c p).duty = s.duty := rfl
@[simp] theorem State.setPosition_sensors (c : Channel) (p : Position) : (s.setPosition c p).sensors = s.sensors := rfl
@[simp] theorem State.setPosition_clock (c : Channel) (p : Position) : (s.setPosition c p).clock = s.clock := rfl
@[simp] theorem State.setPosition_msPhase (c : Channel) (p : Position) : (s.setPosition c p).msPhase = s.msPhase := rfl
@[simp] theorem State.setPosition_pending (c : Channel) (p : Position) : (s.setPosition c p).pending = s.pending := rfl
@[simp] theorem State.setPosition_outlet (c : Channel) (p : Position) (a : Channel) :
    (s.setPosition c p).outlet a = s.outlet a := rfl
@[simp] theorem State.setPosition_demand (c : Channel) (p : Position) (a : Channel) :
    (s.setPosition c p).demand a = s.demand a := rfl
@[simp] theorem State.setPosition_curtailment (c : Channel) (p : Position) (a : Channel) :
    (s.setPosition c p).curtailment a = s.curtailment a := rfl
@[simp] theorem State.setPosition_pool (c : Channel) (p : Position) (a : Pool) :
    (s.setPosition c p).pool a = s.pool a := rfl
@[simp] theorem State.setPosition_hwPart (c : Channel) (p : Position) (a : HwPool) :
    (s.setPosition c p).hwPart a = s.hwPart a := rfl
@[simp] theorem State.setPosition_slot (c : Channel) (p : Position) (a : SlotId) :
    (s.setPosition c p).slot a = s.slot a := rfl
@[simp] theorem State.setPosition_claim (c : Channel) (p : Position) (a : Channel) :
    (s.setPosition c p).claim a = s.claim a := rfl
@[simp] theorem State.setPosition_sensor (c : Channel) (p : Position) (a : InputId) :
    (s.setPosition c p).sensor a = s.sensor a := rfl
@[simp] theorem State.setPosition_handedOff (c : Channel) (p : Position) (a : Channel) :
    (s.setPosition c p).handedOff a = s.handedOff a := rfl
@[simp] theorem State.setPosition_climActive (c : Channel) (p : Position) (a : Channel) :
    (s.setPosition c p).climActive a = s.climActive a := rfl
@[simp] theorem State.setPosition_olimActive (c : Channel) (p : Position) (a : Channel) :
    (s.setPosition c p).olimActive a = s.olimActive a := rfl
@[simp] theorem State.setPosition_freeSteps (c : Channel) (p : Position) :
    (s.setPosition c p).freeSteps = s.freeSteps := rfl
@[simp] theorem State.setPosition_isEligible (c : Channel) (p : Position) (a : Channel) :
    (s.setPosition c p).isEligible a = s.isEligible a := rfl

/-! ### modifyPosition -/

@[simp] theorem State.modifyPosition_rstLow (c : Channel) (f : Position → Position) : (s.modifyPosition c f).rstLow = s.rstLow := rfl
@[simp] theorem State.modifyPosition_link (c : Channel) (f : Position → Position) : (s.modifyPosition c f).link = s.link := rfl
@[simp] theorem State.modifyPosition_xlat (c : Channel) (f : Position → Position) : (s.modifyPosition c f).xlat = s.xlat := rfl
@[simp] theorem State.modifyPosition_outlets (c : Channel) (f : Position → Position) : (s.modifyPosition c f).outlets = s.outlets := rfl
@[simp] theorem State.modifyPosition_pools (c : Channel) (f : Position → Position) : (s.modifyPosition c f).pools = s.pools := rfl
@[simp] theorem State.modifyPosition_demands (c : Channel) (f : Position → Position) : (s.modifyPosition c f).demands = s.demands := rfl
@[simp] theorem State.modifyPosition_curtail (c : Channel) (f : Position → Position) : (s.modifyPosition c f).curtail = s.curtail := rfl
@[simp] theorem State.modifyPosition_log (c : Channel) (f : Position → Position) : (s.modifyPosition c f).log = s.log := rfl
@[simp] theorem State.modifyPosition_handoff (c : Channel) (f : Position → Position) : (s.modifyPosition c f).handoff = s.handoff := rfl
@[simp] theorem State.modifyPosition_duty (c : Channel) (f : Position → Position) : (s.modifyPosition c f).duty = s.duty := rfl
@[simp] theorem State.modifyPosition_sensors (c : Channel) (f : Position → Position) : (s.modifyPosition c f).sensors = s.sensors := rfl
@[simp] theorem State.modifyPosition_clock (c : Channel) (f : Position → Position) : (s.modifyPosition c f).clock = s.clock := rfl
@[simp] theorem State.modifyPosition_msPhase (c : Channel) (f : Position → Position) : (s.modifyPosition c f).msPhase = s.msPhase := rfl
@[simp] theorem State.modifyPosition_pending (c : Channel) (f : Position → Position) : (s.modifyPosition c f).pending = s.pending := rfl
@[simp] theorem State.modifyPosition_outlet (c : Channel) (f : Position → Position) (a : Channel) :
    (s.modifyPosition c f).outlet a = s.outlet a := rfl
@[simp] theorem State.modifyPosition_demand (c : Channel) (f : Position → Position) (a : Channel) :
    (s.modifyPosition c f).demand a = s.demand a := rfl
@[simp] theorem State.modifyPosition_curtailment (c : Channel) (f : Position → Position) (a : Channel) :
    (s.modifyPosition c f).curtailment a = s.curtailment a := rfl
@[simp] theorem State.modifyPosition_pool (c : Channel) (f : Position → Position) (a : Pool) :
    (s.modifyPosition c f).pool a = s.pool a := rfl
@[simp] theorem State.modifyPosition_hwPart (c : Channel) (f : Position → Position) (a : HwPool) :
    (s.modifyPosition c f).hwPart a = s.hwPart a := rfl
@[simp] theorem State.modifyPosition_slot (c : Channel) (f : Position → Position) (a : SlotId) :
    (s.modifyPosition c f).slot a = s.slot a := rfl
@[simp] theorem State.modifyPosition_claim (c : Channel) (f : Position → Position) (a : Channel) :
    (s.modifyPosition c f).claim a = s.claim a := rfl
@[simp] theorem State.modifyPosition_sensor (c : Channel) (f : Position → Position) (a : InputId) :
    (s.modifyPosition c f).sensor a = s.sensor a := rfl
@[simp] theorem State.modifyPosition_handedOff (c : Channel) (f : Position → Position) (a : Channel) :
    (s.modifyPosition c f).handedOff a = s.handedOff a := rfl
@[simp] theorem State.modifyPosition_climActive (c : Channel) (f : Position → Position) (a : Channel) :
    (s.modifyPosition c f).climActive a = s.climActive a := rfl
@[simp] theorem State.modifyPosition_olimActive (c : Channel) (f : Position → Position) (a : Channel) :
    (s.modifyPosition c f).olimActive a = s.olimActive a := rfl
@[simp] theorem State.modifyPosition_freeSteps (c : Channel) (f : Position → Position) :
    (s.modifyPosition c f).freeSteps = s.freeSteps := rfl
@[simp] theorem State.modifyPosition_isEligible (c : Channel) (f : Position → Position) (a : Channel) :
    (s.modifyPosition c f).isEligible a = s.isEligible a := rfl

/-! ### setSlot -/

@[simp] theorem State.setSlot_rstLow (i : SlotId) (x : ProgSlot) : (s.setSlot i x).rstLow = s.rstLow := rfl
@[simp] theorem State.setSlot_link (i : SlotId) (x : ProgSlot) : (s.setSlot i x).link = s.link := rfl
@[simp] theorem State.setSlot_xlat (i : SlotId) (x : ProgSlot) : (s.setSlot i x).xlat = s.xlat := rfl
@[simp] theorem State.setSlot_outlets (i : SlotId) (x : ProgSlot) : (s.setSlot i x).outlets = s.outlets := rfl
@[simp] theorem State.setSlot_pools (i : SlotId) (x : ProgSlot) : (s.setSlot i x).pools = s.pools := rfl
@[simp] theorem State.setSlot_demands (i : SlotId) (x : ProgSlot) : (s.setSlot i x).demands = s.demands := rfl
@[simp] theorem State.setSlot_curtail (i : SlotId) (x : ProgSlot) : (s.setSlot i x).curtail = s.curtail := rfl
@[simp] theorem State.setSlot_log (i : SlotId) (x : ProgSlot) : (s.setSlot i x).log = s.log := rfl
@[simp] theorem State.setSlot_drive (i : SlotId) (x : ProgSlot) : (s.setSlot i x).drive = s.drive := rfl
@[simp] theorem State.setSlot_handoff (i : SlotId) (x : ProgSlot) : (s.setSlot i x).handoff = s.handoff := rfl
@[simp] theorem State.setSlot_sensors (i : SlotId) (x : ProgSlot) : (s.setSlot i x).sensors = s.sensors := rfl
@[simp] theorem State.setSlot_clock (i : SlotId) (x : ProgSlot) : (s.setSlot i x).clock = s.clock := rfl
@[simp] theorem State.setSlot_msPhase (i : SlotId) (x : ProgSlot) : (s.setSlot i x).msPhase = s.msPhase := rfl
@[simp] theorem State.setSlot_pending (i : SlotId) (x : ProgSlot) : (s.setSlot i x).pending = s.pending := rfl
@[simp] theorem State.setSlot_outlet (i : SlotId) (x : ProgSlot) (a : Channel) :
    (s.setSlot i x).outlet a = s.outlet a := rfl
@[simp] theorem State.setSlot_demand (i : SlotId) (x : ProgSlot) (a : Channel) :
    (s.setSlot i x).demand a = s.demand a := rfl
@[simp] theorem State.setSlot_curtailment (i : SlotId) (x : ProgSlot) (a : Channel) :
    (s.setSlot i x).curtailment a = s.curtailment a := rfl
@[simp] theorem State.setSlot_pool (i : SlotId) (x : ProgSlot) (a : Pool) :
    (s.setSlot i x).pool a = s.pool a := rfl
@[simp] theorem State.setSlot_hwPart (i : SlotId) (x : ProgSlot) (a : HwPool) :
    (s.setSlot i x).hwPart a = s.hwPart a := rfl
@[simp] theorem State.setSlot_position (i : SlotId) (x : ProgSlot) (a : Channel) :
    (s.setSlot i x).position a = s.position a := rfl
@[simp] theorem State.setSlot_claim (i : SlotId) (x : ProgSlot) (a : Channel) :
    (s.setSlot i x).claim a = s.claim a := rfl
@[simp] theorem State.setSlot_sensor (i : SlotId) (x : ProgSlot) (a : InputId) :
    (s.setSlot i x).sensor a = s.sensor a := rfl
@[simp] theorem State.setSlot_handedOff (i : SlotId) (x : ProgSlot) (a : Channel) :
    (s.setSlot i x).handedOff a = s.handedOff a := rfl
@[simp] theorem State.setSlot_climActive (i : SlotId) (x : ProgSlot) (a : Channel) :
    (s.setSlot i x).climActive a = s.climActive a := rfl
@[simp] theorem State.setSlot_olimActive (i : SlotId) (x : ProgSlot) (a : Channel) :
    (s.setSlot i x).olimActive a = s.olimActive a := rfl
@[simp] theorem State.setSlot_slotsHeld (i : SlotId) (x : ProgSlot) :
    (s.setSlot i x).slotsHeld = s.slotsHeld := rfl
@[simp] theorem State.setSlot_isEligible (i : SlotId) (x : ProgSlot) (a : Channel) :
    (s.setSlot i x).isEligible a = s.isEligible a := rfl

/-! ### modifySlot -/

@[simp] theorem State.modifySlot_rstLow (i : SlotId) (f : ProgSlot → ProgSlot) : (s.modifySlot i f).rstLow = s.rstLow := rfl
@[simp] theorem State.modifySlot_link (i : SlotId) (f : ProgSlot → ProgSlot) : (s.modifySlot i f).link = s.link := rfl
@[simp] theorem State.modifySlot_xlat (i : SlotId) (f : ProgSlot → ProgSlot) : (s.modifySlot i f).xlat = s.xlat := rfl
@[simp] theorem State.modifySlot_outlets (i : SlotId) (f : ProgSlot → ProgSlot) : (s.modifySlot i f).outlets = s.outlets := rfl
@[simp] theorem State.modifySlot_pools (i : SlotId) (f : ProgSlot → ProgSlot) : (s.modifySlot i f).pools = s.pools := rfl
@[simp] theorem State.modifySlot_demands (i : SlotId) (f : ProgSlot → ProgSlot) : (s.modifySlot i f).demands = s.demands := rfl
@[simp] theorem State.modifySlot_curtail (i : SlotId) (f : ProgSlot → ProgSlot) : (s.modifySlot i f).curtail = s.curtail := rfl
@[simp] theorem State.modifySlot_log (i : SlotId) (f : ProgSlot → ProgSlot) : (s.modifySlot i f).log = s.log := rfl
@[simp] theorem State.modifySlot_drive (i : SlotId) (f : ProgSlot → ProgSlot) : (s.modifySlot i f).drive = s.drive := rfl
@[simp] theorem State.modifySlot_handoff (i : SlotId) (f : ProgSlot → ProgSlot) : (s.modifySlot i f).handoff = s.handoff := rfl
@[simp] theorem State.modifySlot_sensors (i : SlotId) (f : ProgSlot → ProgSlot) : (s.modifySlot i f).sensors = s.sensors := rfl
@[simp] theorem State.modifySlot_clock (i : SlotId) (f : ProgSlot → ProgSlot) : (s.modifySlot i f).clock = s.clock := rfl
@[simp] theorem State.modifySlot_msPhase (i : SlotId) (f : ProgSlot → ProgSlot) : (s.modifySlot i f).msPhase = s.msPhase := rfl
@[simp] theorem State.modifySlot_pending (i : SlotId) (f : ProgSlot → ProgSlot) : (s.modifySlot i f).pending = s.pending := rfl
@[simp] theorem State.modifySlot_outlet (i : SlotId) (f : ProgSlot → ProgSlot) (a : Channel) :
    (s.modifySlot i f).outlet a = s.outlet a := rfl
@[simp] theorem State.modifySlot_demand (i : SlotId) (f : ProgSlot → ProgSlot) (a : Channel) :
    (s.modifySlot i f).demand a = s.demand a := rfl
@[simp] theorem State.modifySlot_curtailment (i : SlotId) (f : ProgSlot → ProgSlot) (a : Channel) :
    (s.modifySlot i f).curtailment a = s.curtailment a := rfl
@[simp] theorem State.modifySlot_pool (i : SlotId) (f : ProgSlot → ProgSlot) (a : Pool) :
    (s.modifySlot i f).pool a = s.pool a := rfl
@[simp] theorem State.modifySlot_hwPart (i : SlotId) (f : ProgSlot → ProgSlot) (a : HwPool) :
    (s.modifySlot i f).hwPart a = s.hwPart a := rfl
@[simp] theorem State.modifySlot_position (i : SlotId) (f : ProgSlot → ProgSlot) (a : Channel) :
    (s.modifySlot i f).position a = s.position a := rfl
@[simp] theorem State.modifySlot_claim (i : SlotId) (f : ProgSlot → ProgSlot) (a : Channel) :
    (s.modifySlot i f).claim a = s.claim a := rfl
@[simp] theorem State.modifySlot_sensor (i : SlotId) (f : ProgSlot → ProgSlot) (a : InputId) :
    (s.modifySlot i f).sensor a = s.sensor a := rfl
@[simp] theorem State.modifySlot_handedOff (i : SlotId) (f : ProgSlot → ProgSlot) (a : Channel) :
    (s.modifySlot i f).handedOff a = s.handedOff a := rfl
@[simp] theorem State.modifySlot_climActive (i : SlotId) (f : ProgSlot → ProgSlot) (a : Channel) :
    (s.modifySlot i f).climActive a = s.climActive a := rfl
@[simp] theorem State.modifySlot_olimActive (i : SlotId) (f : ProgSlot → ProgSlot) (a : Channel) :
    (s.modifySlot i f).olimActive a = s.olimActive a := rfl
@[simp] theorem State.modifySlot_slotsHeld (i : SlotId) (f : ProgSlot → ProgSlot) :
    (s.modifySlot i f).slotsHeld = s.slotsHeld := rfl
@[simp] theorem State.modifySlot_isEligible (i : SlotId) (f : ProgSlot → ProgSlot) (a : Channel) :
    (s.modifySlot i f).isEligible a = s.isEligible a := rfl

/-! ### setClaim -/

@[simp] theorem State.setClaim_rstLow (c : Channel) (x : Claim) : (s.setClaim c x).rstLow = s.rstLow := rfl
@[simp] theorem State.setClaim_link (c : Channel) (x : Claim) : (s.setClaim c x).link = s.link := rfl
@[simp] theorem State.setClaim_xlat (c : Channel) (x : Claim) : (s.setClaim c x).xlat = s.xlat := rfl
@[simp] theorem State.setClaim_outlets (c : Channel) (x : Claim) : (s.setClaim c x).outlets = s.outlets := rfl
@[simp] theorem State.setClaim_pools (c : Channel) (x : Claim) : (s.setClaim c x).pools = s.pools := rfl
@[simp] theorem State.setClaim_demands (c : Channel) (x : Claim) : (s.setClaim c x).demands = s.demands := rfl
@[simp] theorem State.setClaim_curtail (c : Channel) (x : Claim) : (s.setClaim c x).curtail = s.curtail := rfl
@[simp] theorem State.setClaim_log (c : Channel) (x : Claim) : (s.setClaim c x).log = s.log := rfl
@[simp] theorem State.setClaim_drive (c : Channel) (x : Claim) : (s.setClaim c x).drive = s.drive := rfl
@[simp] theorem State.setClaim_handoff (c : Channel) (x : Claim) : (s.setClaim c x).handoff = s.handoff := rfl
@[simp] theorem State.setClaim_sensors (c : Channel) (x : Claim) : (s.setClaim c x).sensors = s.sensors := rfl
@[simp] theorem State.setClaim_clock (c : Channel) (x : Claim) : (s.setClaim c x).clock = s.clock := rfl
@[simp] theorem State.setClaim_msPhase (c : Channel) (x : Claim) : (s.setClaim c x).msPhase = s.msPhase := rfl
@[simp] theorem State.setClaim_pending (c : Channel) (x : Claim) : (s.setClaim c x).pending = s.pending := rfl
@[simp] theorem State.setClaim_outlet (c : Channel) (x : Claim) (a : Channel) :
    (s.setClaim c x).outlet a = s.outlet a := rfl
@[simp] theorem State.setClaim_demand (c : Channel) (x : Claim) (a : Channel) :
    (s.setClaim c x).demand a = s.demand a := rfl
@[simp] theorem State.setClaim_curtailment (c : Channel) (x : Claim) (a : Channel) :
    (s.setClaim c x).curtailment a = s.curtailment a := rfl
@[simp] theorem State.setClaim_pool (c : Channel) (x : Claim) (a : Pool) :
    (s.setClaim c x).pool a = s.pool a := rfl
@[simp] theorem State.setClaim_hwPart (c : Channel) (x : Claim) (a : HwPool) :
    (s.setClaim c x).hwPart a = s.hwPart a := rfl
@[simp] theorem State.setClaim_position (c : Channel) (x : Claim) (a : Channel) :
    (s.setClaim c x).position a = s.position a := rfl
@[simp] theorem State.setClaim_slot (c : Channel) (x : Claim) (a : SlotId) :
    (s.setClaim c x).slot a = s.slot a := rfl
@[simp] theorem State.setClaim_sensor (c : Channel) (x : Claim) (a : InputId) :
    (s.setClaim c x).sensor a = s.sensor a := rfl
@[simp] theorem State.setClaim_handedOff (c : Channel) (x : Claim) (a : Channel) :
    (s.setClaim c x).handedOff a = s.handedOff a := rfl
@[simp] theorem State.setClaim_climActive (c : Channel) (x : Claim) (a : Channel) :
    (s.setClaim c x).climActive a = s.climActive a := rfl
@[simp] theorem State.setClaim_olimActive (c : Channel) (x : Claim) (a : Channel) :
    (s.setClaim c x).olimActive a = s.olimActive a := rfl
@[simp] theorem State.setClaim_freeSteps (c : Channel) (x : Claim) :
    (s.setClaim c x).freeSteps = s.freeSteps := rfl
@[simp] theorem State.setClaim_slotsHeld (c : Channel) (x : Claim) :
    (s.setClaim c x).slotsHeld = s.slotsHeld := rfl
@[simp] theorem State.setClaim_isEligible (c : Channel) (x : Claim) (a : Channel) :
    (s.setClaim c x).isEligible a = s.isEligible a := rfl

/-! ### setSensor -/

@[simp] theorem State.setSensor_rstLow (i : InputId) (x : Sensor) : (s.setSensor i x).rstLow = s.rstLow := rfl
@[simp] theorem State.setSensor_link (i : InputId) (x : Sensor) : (s.setSensor i x).link = s.link := rfl
@[simp] theorem State.setSensor_xlat (i : InputId) (x : Sensor) : (s.setSensor i x).xlat = s.xlat := rfl
@[simp] theorem State.setSensor_outlets (i : InputId) (x : Sensor) : (s.setSensor i x).outlets = s.outlets := rfl
@[simp] theorem State.setSensor_pools (i : InputId) (x : Sensor) : (s.setSensor i x).pools = s.pools := rfl
@[simp] theorem State.setSensor_demands (i : InputId) (x : Sensor) : (s.setSensor i x).demands = s.demands := rfl
@[simp] theorem State.setSensor_curtail (i : InputId) (x : Sensor) : (s.setSensor i x).curtail = s.curtail := rfl
@[simp] theorem State.setSensor_log (i : InputId) (x : Sensor) : (s.setSensor i x).log = s.log := rfl
@[simp] theorem State.setSensor_drive (i : InputId) (x : Sensor) : (s.setSensor i x).drive = s.drive := rfl
@[simp] theorem State.setSensor_handoff (i : InputId) (x : Sensor) : (s.setSensor i x).handoff = s.handoff := rfl
@[simp] theorem State.setSensor_duty (i : InputId) (x : Sensor) : (s.setSensor i x).duty = s.duty := rfl
@[simp] theorem State.setSensor_clock (i : InputId) (x : Sensor) : (s.setSensor i x).clock = s.clock := rfl
@[simp] theorem State.setSensor_msPhase (i : InputId) (x : Sensor) : (s.setSensor i x).msPhase = s.msPhase := rfl
@[simp] theorem State.setSensor_pending (i : InputId) (x : Sensor) : (s.setSensor i x).pending = s.pending := rfl
@[simp] theorem State.setSensor_outlet (i : InputId) (x : Sensor) (a : Channel) :
    (s.setSensor i x).outlet a = s.outlet a := rfl
@[simp] theorem State.setSensor_demand (i : InputId) (x : Sensor) (a : Channel) :
    (s.setSensor i x).demand a = s.demand a := rfl
@[simp] theorem State.setSensor_curtailment (i : InputId) (x : Sensor) (a : Channel) :
    (s.setSensor i x).curtailment a = s.curtailment a := rfl
@[simp] theorem State.setSensor_pool (i : InputId) (x : Sensor) (a : Pool) :
    (s.setSensor i x).pool a = s.pool a := rfl
@[simp] theorem State.setSensor_hwPart (i : InputId) (x : Sensor) (a : HwPool) :
    (s.setSensor i x).hwPart a = s.hwPart a := rfl
@[simp] theorem State.setSensor_position (i : InputId) (x : Sensor) (a : Channel) :
    (s.setSensor i x).position a = s.position a := rfl
@[simp] theorem State.setSensor_slot (i : InputId) (x : Sensor) (a : SlotId) :
    (s.setSensor i x).slot a = s.slot a := rfl
@[simp] theorem State.setSensor_claim (i : InputId) (x : Sensor) (a : Channel) :
    (s.setSensor i x).claim a = s.claim a := rfl
@[simp] theorem State.setSensor_handedOff (i : InputId) (x : Sensor) (a : Channel) :
    (s.setSensor i x).handedOff a = s.handedOff a := rfl
@[simp] theorem State.setSensor_climActive (i : InputId) (x : Sensor) (a : Channel) :
    (s.setSensor i x).climActive a = s.climActive a := rfl
@[simp] theorem State.setSensor_olimActive (i : InputId) (x : Sensor) (a : Channel) :
    (s.setSensor i x).olimActive a = s.olimActive a := rfl
@[simp] theorem State.setSensor_freeSteps (i : InputId) (x : Sensor) :
    (s.setSensor i x).freeSteps = s.freeSteps := rfl
@[simp] theorem State.setSensor_slotsHeld (i : InputId) (x : Sensor) :
    (s.setSensor i x).slotsHeld = s.slotsHeld := rfl
@[simp] theorem State.setSensor_isEligible (i : InputId) (x : Sensor) (a : Channel) :
    (s.setSensor i x).isEligible a = s.isEligible a := rfl

/-! ### makeReady -/

@[simp] theorem makeReady_rstLow (f : Frame) : (makeReady f s).rstLow = s.rstLow := rfl
@[simp] theorem makeReady_xlat (f : Frame) : (makeReady f s).xlat = s.xlat := rfl
@[simp] theorem makeReady_outlets (f : Frame) : (makeReady f s).outlets = s.outlets := rfl
@[simp] theorem makeReady_pools (f : Frame) : (makeReady f s).pools = s.pools := rfl
@[simp] theorem makeReady_demands (f : Frame) : (makeReady f s).demands = s.demands := rfl
@[simp] theorem makeReady_curtail (f : Frame) : (makeReady f s).curtail = s.curtail := rfl
@[simp] theorem makeReady_log (f : Frame) : (makeReady f s).log = s.log := rfl
@[simp] theorem makeReady_drive (f : Frame) : (makeReady f s).drive = s.drive := rfl
@[simp] theorem makeReady_handoff (f : Frame) : (makeReady f s).handoff = s.handoff := rfl
@[simp] theorem makeReady_duty (f : Frame) : (makeReady f s).duty = s.duty := rfl
@[simp] theorem makeReady_sensors (f : Frame) : (makeReady f s).sensors = s.sensors := rfl
@[simp] theorem makeReady_clock (f : Frame) : (makeReady f s).clock = s.clock := rfl
@[simp] theorem makeReady_msPhase (f : Frame) : (makeReady f s).msPhase = s.msPhase := rfl
@[simp] theorem makeReady_pending (f : Frame) : (makeReady f s).pending = s.pending := rfl
@[simp] theorem makeReady_outlet (f : Frame) (a : Channel) :
    (makeReady f s).outlet a = s.outlet a := rfl
@[simp] theorem makeReady_demand (f : Frame) (a : Channel) :
    (makeReady f s).demand a = s.demand a := rfl
@[simp] theorem makeReady_curtailment (f : Frame) (a : Channel) :
    (makeReady f s).curtailment a = s.curtailment a := rfl
@[simp] theorem makeReady_pool (f : Frame) (a : Pool) :
    (makeReady f s).pool a = s.pool a := rfl
@[simp] theorem makeReady_hwPart (f : Frame) (a : HwPool) :
    (makeReady f s).hwPart a = s.hwPart a := rfl
@[simp] theorem makeReady_position (f : Frame) (a : Channel) :
    (makeReady f s).position a = s.position a := rfl
@[simp] theorem makeReady_slot (f : Frame) (a : SlotId) :
    (makeReady f s).slot a = s.slot a := rfl
@[simp] theorem makeReady_claim (f : Frame) (a : Channel) :
    (makeReady f s).claim a = s.claim a := rfl
@[simp] theorem makeReady_sensor (f : Frame) (a : InputId) :
    (makeReady f s).sensor a = s.sensor a := rfl
@[simp] theorem makeReady_handedOff (f : Frame) (a : Channel) :
    (makeReady f s).handedOff a = s.handedOff a := rfl
@[simp] theorem makeReady_climActive (f : Frame) (a : Channel) :
    (makeReady f s).climActive a = s.climActive a := rfl
@[simp] theorem makeReady_olimActive (f : Frame) (a : Channel) :
    (makeReady f s).olimActive a = s.olimActive a := rfl
@[simp] theorem makeReady_freeSteps (f : Frame) :
    (makeReady f s).freeSteps = s.freeSteps := rfl
@[simp] theorem makeReady_slotsHeld (f : Frame) :
    (makeReady f s).slotsHeld = s.slotsHeld := rfl
@[simp] theorem makeReady_isEligible (f : Frame) (a : Channel) :
    (makeReady f s).isEligible a = s.isEligible a := rfl

/-! ### removeEntry -/

@[simp] theorem removeEntry_rstLow (c : Channel) : (removeEntry c s).rstLow = s.rstLow := rfl
@[simp] theorem removeEntry_link (c : Channel) : (removeEntry c s).link = s.link := rfl
@[simp] theorem removeEntry_xlat (c : Channel) : (removeEntry c s).xlat = s.xlat := rfl
@[simp] theorem removeEntry_outlets (c : Channel) : (removeEntry c s).outlets = s.outlets := rfl
@[simp] theorem removeEntry_pools (c : Channel) : (removeEntry c s).pools = s.pools := rfl
@[simp] theorem removeEntry_demands (c : Channel) : (removeEntry c s).demands = s.demands := rfl
@[simp] theorem removeEntry_curtail (c : Channel) : (removeEntry c s).curtail = s.curtail := rfl
@[simp] theorem removeEntry_log (c : Channel) : (removeEntry c s).log = s.log := rfl
@[simp] theorem removeEntry_handoff (c : Channel) : (removeEntry c s).handoff = s.handoff := rfl
@[simp] theorem removeEntry_duty (c : Channel) : (removeEntry c s).duty = s.duty := rfl
@[simp] theorem removeEntry_sensors (c : Channel) : (removeEntry c s).sensors = s.sensors := rfl
@[simp] theorem removeEntry_clock (c : Channel) : (removeEntry c s).clock = s.clock := rfl
@[simp] theorem removeEntry_msPhase (c : Channel) : (removeEntry c s).msPhase = s.msPhase := rfl
@[simp] theorem removeEntry_pending (c : Channel) : (removeEntry c s).pending = s.pending := rfl
@[simp] theorem removeEntry_outlet (c : Channel) (a : Channel) :
    (removeEntry c s).outlet a = s.outlet a := rfl
@[simp] theorem removeEntry_demand (c : Channel) (a : Channel) :
    (removeEntry c s).demand a = s.demand a := rfl
@[simp] theorem removeEntry_curtailment (c : Channel) (a : Channel) :
    (removeEntry c s).curtailment a = s.curtailment a := rfl
@[simp] theorem removeEntry_pool (c : Channel) (a : Pool) :
    (removeEntry c s).pool a = s.pool a := rfl
@[simp] theorem removeEntry_hwPart (c : Channel) (a : HwPool) :
    (removeEntry c s).hwPart a = s.hwPart a := rfl
@[simp] theorem removeEntry_position (c : Channel) (a : Channel) :
    (removeEntry c s).position a = s.position a := rfl
@[simp] theorem removeEntry_slot (c : Channel) (a : SlotId) :
    (removeEntry c s).slot a = s.slot a := rfl
@[simp] theorem removeEntry_claim (c : Channel) (a : Channel) :
    (removeEntry c s).claim a = s.claim a := rfl
@[simp] theorem removeEntry_sensor (c : Channel) (a : InputId) :
    (removeEntry c s).sensor a = s.sensor a := rfl
@[simp] theorem removeEntry_handedOff (c : Channel) (a : Channel) :
    (removeEntry c s).handedOff a = s.handedOff a := rfl
@[simp] theorem removeEntry_climActive (c : Channel) (a : Channel) :
    (removeEntry c s).climActive a = s.climActive a := rfl
@[simp] theorem removeEntry_olimActive (c : Channel) (a : Channel) :
    (removeEntry c s).olimActive a = s.olimActive a := rfl
@[simp] theorem removeEntry_freeSteps (c : Channel) :
    (removeEntry c s).freeSteps = s.freeSteps := rfl
@[simp] theorem removeEntry_slotsHeld (c : Channel) :
    (removeEntry c s).slotsHeld = s.slotsHeld := rfl
@[simp] theorem removeEntry_isEligible (c : Channel) (a : Channel) :
    (removeEntry c s).isEligible a = s.isEligible a := rfl

/-! ### addEntry -/

@[simp] theorem addEntry_rstLow (d : MoveDir) (c : Channel) : (addEntry d c s).rstLow = s.rstLow := by
  cases d <;> rfl
@[simp] theorem addEntry_link (d : MoveDir) (c : Channel) : (addEntry d c s).link = s.link := by
  cases d <;> rfl
@[simp] theorem addEntry_xlat (d : MoveDir) (c : Channel) : (addEntry d c s).xlat = s.xlat := by
  cases d <;> rfl
@[simp] theorem addEntry_outlets (d : MoveDir) (c : Channel) : (addEntry d c s).outlets = s.outlets := by
  cases d <;> rfl
@[simp] theorem addEntry_pools (d : MoveDir) (c : Channel) : (addEntry d c s).pools = s.pools := by
  cases d <;> rfl
@[simp] theorem addEntry_demands (d : MoveDir) (c : Channel) : (addEntry d c s).demands = s.demands := by
  cases d <;> rfl
@[simp] theorem addEntry_curtail (d : MoveDir) (c : Channel) : (addEntry d c s).curtail = s.curtail := by
  cases d <;> rfl
@[simp] theorem addEntry_log (d : MoveDir) (c : Channel) : (addEntry d c s).log = s.log := by
  cases d <;> rfl
@[simp] theorem addEntry_handoff (d : MoveDir) (c : Channel) : (addEntry d c s).handoff = s.handoff := by
  cases d <;> rfl
@[simp] theorem addEntry_duty (d : MoveDir) (c : Channel) : (addEntry d c s).duty = s.duty := by
  cases d <;> rfl
@[simp] theorem addEntry_sensors (d : MoveDir) (c : Channel) : (addEntry d c s).sensors = s.sensors := by
  cases d <;> rfl
@[simp] theorem addEntry_clock (d : MoveDir) (c : Channel) : (addEntry d c s).clock = s.clock := by
  cases d <;> rfl
@[simp] theorem addEntry_msPhase (d : MoveDir) (c : Channel) : (addEntry d c s).msPhase = s.msPhase := by
  cases d <;> rfl
@[simp] theorem addEntry_pending (d : MoveDir) (c : Channel) : (addEntry d c s).pending = s.pending := by
  cases d <;> rfl
@[simp] theorem addEntry_outlet (d : MoveDir) (c : Channel) (a : Channel) :
    (addEntry d c s).outlet a = s.outlet a := by
  cases d <;> rfl
@[simp] theorem addEntry_demand (d : MoveDir) (c : Channel) (a : Channel) :
    (addEntry d c s).demand a = s.demand a := by
  cases d <;> rfl
@[simp] theorem addEntry_curtailment (d : MoveDir) (c : Channel) (a : Channel) :
    (addEntry d c s).curtailment a = s.curtailment a := by
  cases d <;> rfl
@[simp] theorem addEntry_pool (d : MoveDir) (c : Channel) (a : Pool) :
    (addEntry d c s).pool a = s.pool a := by
  cases d <;> rfl
@[simp] theorem addEntry_hwPart (d : MoveDir) (c : Channel) (a : HwPool) :
    (addEntry d c s).hwPart a = s.hwPart a := by
  cases d <;> rfl
@[simp] theorem addEntry_position (d : MoveDir) (c : Channel) (a : Channel) :
    (addEntry d c s).position a = s.position a := by
  cases d <;> rfl
@[simp] theorem addEntry_slot (d : MoveDir) (c : Channel) (a : SlotId) :
    (addEntry d c s).slot a = s.slot a := by
  cases d <;> rfl
@[simp] theorem addEntry_claim (d : MoveDir) (c : Channel) (a : Channel) :
    (addEntry d c s).claim a = s.claim a := by
  cases d <;> rfl
@[simp] theorem addEntry_sensor (d : MoveDir) (c : Channel) (a : InputId) :
    (addEntry d c s).sensor a = s.sensor a := by
  cases d <;> rfl
@[simp] theorem addEntry_handedOff (d : MoveDir) (c : Channel) (a : Channel) :
    (addEntry d c s).handedOff a = s.handedOff a := by
  cases d <;> rfl
@[simp] theorem addEntry_climActive (d : MoveDir) (c : Channel) (a : Channel) :
    (addEntry d c s).climActive a = s.climActive a := by
  cases d <;> rfl
@[simp] theorem addEntry_olimActive (d : MoveDir) (c : Channel) (a : Channel) :
    (addEntry d c s).olimActive a = s.olimActive a := by
  cases d <;> rfl
@[simp] theorem addEntry_freeSteps (d : MoveDir) (c : Channel) :
    (addEntry d c s).freeSteps = s.freeSteps := by
  cases d <;> rfl
@[simp] theorem addEntry_slotsHeld (d : MoveDir) (c : Channel) :
    (addEntry d c s).slotsHeld = s.slotsHeld := by
  cases d <;> rfl
@[simp] theorem addEntry_isEligible (d : MoveDir) (c : Channel) (a : Channel) :
    (addEntry d c s).isEligible a = s.isEligible a := by
  cases d <;> rfl

/-! ### The record written -/

theorem State.outlet_setOutlet (c d : Channel) (o : Option Outlet) :
    (s.setOutlet c o).outlet d = if c = d then o else s.outlet d := Table.get_set ..
theorem State.outlet_modifyOutlet (c d : Channel) (f : Outlet → Outlet) :
    (s.modifyOutlet c f).outlet d = if c = d then (s.outlet c).map f else s.outlet d := Table.get_set ..
theorem State.demand_setDemand (c d : Channel) (x : HostDemand) :
    (s.setDemand c x).demand d = if c = d then x else s.demand d := Table.get_set ..
theorem State.curtailment_setCurtailment (c d : Channel) (x : Curtailment) :
    (s.setCurtailment c x).curtailment d = if c = d then x else s.curtailment d := Table.get_set ..
theorem State.position_setPosition (c d : Channel) (p : Position) :
    (s.setPosition c p).position d = if c = d then p else s.position d := Table.get_set ..
theorem State.position_modifyPosition (c d : Channel) (f : Position → Position) :
    (s.modifyPosition c f).position d = if c = d then f (s.position c) else s.position d := Table.get_set ..
theorem State.slot_setSlot (i j : SlotId) (x : ProgSlot) :
    (s.setSlot i x).slot j = if i = j then x else s.slot j := Table.get_set ..
theorem State.slot_modifySlot (i j : SlotId) (f : ProgSlot → ProgSlot) :
    (s.modifySlot i f).slot j = if i = j then f (s.slot i) else s.slot j := Table.get_set ..
theorem State.claim_setClaim (c d : Channel) (x : Claim) :
    (s.setClaim c x).claim d = if c = d then x else s.claim d := Table.get_set ..
theorem State.sensor_setSensor (i j : InputId) (x : Sensor) :
    (s.setSensor i x).sensor j = if i = j then x else s.sensor j := Table.get_set ..
theorem State.pool_setPool (p q : Pool) (r : PoolRecord) :
    (s.setPool p r).pool q = if p = q then r else s.pool q := by
  cases p with
  | steam =>
    cases q with
    | steam => rfl
    | hw k => cases k <;> rfl
  | hw h =>
    cases q with
    | steam => cases h <;> rfl
    | hw k => cases h <;> cases k <;> rfl
theorem State.hwPart_setHwPart (h k : HwPool) (r : HwPart) :
    (s.setHwPart h r).hwPart k = if h = k then r else s.hwPart k := by
  cases h <;> cases k <;> rfl
@[simp] theorem State.steamPart_setSteamPart (r : SteamPart) : (s.setSteamPart r).pools.steamPart = r := rfl
@[simp] theorem State.steamPart_setPool (p : Pool) (r : PoolRecord) :
    (s.setPool p r).pools.steamPart = s.pools.steamPart := by
  cases p with
  | steam => rfl
  | hw h => cases h <;> rfl
@[simp] theorem State.steamPart_setHwPart (h : HwPool) (r : HwPart) :
    (s.setHwPart h r).pools.steamPart = s.pools.steamPart := by
  cases h <;> rfl
@[simp] theorem makeReady_tx (f : Frame) : (makeReady f s).link.tx = s.link.tx ++ [f] := rfl
@[simp] theorem makeReady_queue (f : Frame) : (makeReady f s).link.queue = s.link.queue := rfl
@[simp] theorem makeReady_notices (f : Frame) : (makeReady f s).link.notices = s.link.notices := rfl
@[simp] theorem makeReady_mask (f : Frame) : (makeReady f s).link.mask = s.link.mask := rfl
@[simp] theorem removeEntry_closing (c : Channel) :
    (removeEntry c s).drive.closing = s.drive.closing.filter (· ≠ c) := rfl
@[simp] theorem removeEntry_opening (c : Channel) :
    (removeEntry c s).drive.opening = s.drive.opening.filter (· ≠ c) := rfl

end Sys2Proof.Machine
end

