-- ==== Sys2Proof/Laws/Link.lean ====
section
/-! SUPPORT. What a raise, the taking of a request and the taking of an event can do. -/

namespace Sys2Proof.Machine

/-- A raise: nothing, or the kind becomes pending, or that and one NOTICE frame at the end of the transmit order. -/
theorem raise_cases (k : NoticeKind) (s : State) :
    (s.isPending k = true ∧ raise k s = s) ∨
    (s.isPending k = false ∧ s.isMasked k = true ∧
      raise k s = { s with link := { s.link with notices := s.link.notices ||| k.bit } }) ∨
    (s.isPending k = false ∧ s.isMasked k = false ∧
      raise k s = makeReady (noticeFrame (s.link.notices ||| k.bit) s.link.mask k.bit)
        { s with link := { s.link with notices := s.link.notices ||| k.bit } }) := by
  unfold raise
  by_cases hp : s.isPending k = true
  · simp [hp]
  · have hp' : s.isPending k = false := by simpa using hp
    by_cases hm : s.isMasked k = true
    · simp [hp', hm]
    · have hm2 : s.isMasked k = false := by simpa using hm
      simp [hp', hm2]

/-- What a raise does to the link follows from the link alone. -/
theorem raise_link_congr (k : NoticeKind) {s t : State} (h : s.link = t.link) : (raise k s).link = (raise k t).link := by
  have hp : s.isPending k = t.isPending k := by simp [State.isPending, h]
  have hm : s.isMasked k = t.isMasked k := by simp [State.isMasked, h]
  unfold raise
  rw [hp, hm]
  split
  · exact h
  · split <;> simp [makeReady, h]

/-- A raise changes the pending set and the transmit order at most. -/
theorem raise_eq (k : NoticeKind) (s : State) :
    ∃ (n : Byte) (fs : List Frame),
      raise k s = { s with link := { s.link with notices := n, tx := s.link.tx ++ fs } } := by
  rcases raise_cases k s with ⟨_, h⟩ | ⟨_, _, h⟩ | ⟨_, _, h⟩
  · exact ⟨s.link.notices, [], by simp [h]⟩
  · exact ⟨s.link.notices ||| k.bit, [], by rw [h]; simp⟩
  · exact ⟨_, [_], by rw [h]; rfl⟩

section
variable (k : NoticeKind) (s : State)

@[simp] theorem raise_rstLow : (raise k s).rstLow = s.rstLow := by obtain ⟨n, fs, h⟩ := raise_eq k s; rw [h]
@[simp] theorem raise_xlat : (raise k s).xlat = s.xlat := by obtain ⟨n, fs, h⟩ := raise_eq k s; rw [h]
@[simp] theorem raise_outlets : (raise k s).outlets = s.outlets := by obtain ⟨n, fs, h⟩ := raise_eq k s; rw [h]
@[simp] theorem raise_pools : (raise k s).pools = s.pools := by obtain ⟨n, fs, h⟩ := raise_eq k s; rw [h]
@[simp] theorem raise_demands : (raise k s).demands = s.demands := by obtain ⟨n, fs, h⟩ := raise_eq k s; rw [h]
@[simp] theorem raise_curtail : (raise k s).curtail = s.curtail := by obtain ⟨n, fs, h⟩ := raise_eq k s; rw [h]
@[simp] theorem raise_log : (raise k s).log = s.log := by obtain ⟨n, fs, h⟩ := raise_eq k s; rw [h]
@[simp] theorem raise_drive : (raise k s).drive = s.drive := by obtain ⟨n, fs, h⟩ := raise_eq k s; rw [h]
@[simp] theorem raise_handoff : (raise k s).handoff = s.handoff := by obtain ⟨n, fs, h⟩ := raise_eq k s; rw [h]
@[simp] theorem raise_duty : (raise k s).duty = s.duty := by obtain ⟨n, fs, h⟩ := raise_eq k s; rw [h]
@[simp] theorem raise_sensors : (raise k s).sensors = s.sensors := by obtain ⟨n, fs, h⟩ := raise_eq k s; rw [h]
@[simp] theorem raise_clock : (raise k s).clock = s.clock := by obtain ⟨n, fs, h⟩ := raise_eq k s; rw [h]
@[simp] theorem raise_msPhase : (raise k s).msPhase = s.msPhase := by obtain ⟨n, fs, h⟩ := raise_eq k s; rw [h]
@[simp] theorem raise_pending : (raise k s).pending = s.pending := by obtain ⟨n, fs, h⟩ := raise_eq k s; rw [h]
@[simp] theorem raise_queue : (raise k s).link.queue = s.link.queue := by obtain ⟨n, fs, h⟩ := raise_eq k s; rw [h]
@[simp] theorem raise_speed : (raise k s).link.speed = s.link.speed := by obtain ⟨n, fs, h⟩ := raise_eq k s; rw [h]
@[simp] theorem raise_mask : (raise k s).link.mask = s.link.mask := by obtain ⟨n, fs, h⟩ := raise_eq k s; rw [h]
@[simp] theorem raise_rxBuf : (raise k s).link.rxBuf = s.link.rxBuf := by obtain ⟨n, fs, h⟩ := raise_eq k s; rw [h]
@[simp] theorem raise_rxGap : (raise k s).link.rxGap = s.link.rxGap := by obtain ⟨n, fs, h⟩ := raise_eq k s; rw [h]
@[simp] theorem raise_resetDue : (raise k s).link.resetDue = s.link.resetDue := by
  obtain ⟨n, fs, h⟩ := raise_eq k s; rw [h]
@[simp] theorem raise_outlet (a : Channel) : (raise k s).outlet a = s.outlet a := by simp [State.outlet]
@[simp] theorem raise_position (a : Channel) : (raise k s).position a = s.position a := by simp [State.position]
@[simp] theorem raise_slot (a : SlotId) : (raise k s).slot a = s.slot a := by simp [State.slot]
@[simp] theorem raise_claim (a : Channel) : (raise k s).claim a = s.claim a := by simp [State.claim]
@[simp] theorem raise_sensor (a : InputId) : (raise k s).sensor a = s.sensor a := by simp [State.sensor]
@[simp] theorem raise_pool (a : Pool) : (raise k s).pool a = s.pool a := by
  cases a with
  | steam => simp [State.pool]
  | hw h => cases h <;> simp [State.pool]
@[simp] theorem raise_hwPart (a : HwPool) : (raise k s).hwPart a = s.hwPart a := by cases a <;> simp [State.hwPart]
end

/-- A request row executes the frame that calls for it: BAD_LENGTH for a payload that does not fit, and otherwise what the
body answers (R180, R181). -/
theorem request_takes {row : Instr} {body : List Byte → State → Answer × State} {s : State} {f : Frame} {rest : List Frame}
    (h : s.takes f rest) (hrow : requestRow f = row) :
    request row body s = .next
      (if fits row f.payload = true then
        (body f.payload (s.dequeue rest)).2.answered f (body f.payload (s.dequeue rest)).1
      else s.refused f rest .badLength) := by
  obtain ⟨h₁, h₂, h₃⟩ := h
  simp only [request, running, execute, h₁, h₂, h₃, hrow, if_true]
  split <;> simp_all [State.answered, State.dequeue, State.refused]

/-- What a request row can do, in any state: nothing; or the head frame leaves the queue and is refused BAD_LENGTH; or it
leaves the queue and the body acts and answers. -/
theorem execute_cases (row : Instr) (body : List Byte → State → Answer × State) (s : State) :
    execute row body s = s ∨
    (∃ (f : Frame) (rest : List Frame), s.link.tx = [] ∧ s.link.queue = f :: rest ∧ requestRow f = row ∧
      fits row f.payload = false ∧
      execute row body s = s.refused f rest .badLength) ∨
    (∃ (f : Frame) (rest : List Frame), s.link.tx = [] ∧ s.link.queue = f :: rest ∧ requestRow f = row ∧
      fits row f.payload = true ∧
      execute row body s =
        (body f.payload (s.dequeue rest)).2.answered f (body f.payload (s.dequeue rest)).1) := by
  unfold execute
  split
  · next f rest ht hq =>
    by_cases hr : requestRow f = row
    · by_cases hf : fits row f.payload = true
      · exact .inr (.inr ⟨f, rest, ht, hq, hr, hf, by simp [hr, hf, State.answered, State.dequeue]⟩)
      · have hf' : fits row f.payload = false := by simpa using hf
        exact .inr (.inl ⟨f, rest, ht, hq, hr, hf', by simp [hr, hf', State.answered, State.dequeue, State.refused]⟩)
    · simp [hr]
  · exact .inl rfl

/-- An event is taken, or not while RSTn is low (R189). -/
theorem running_next (f : State → State) (s : State) (h : s.rstLow = false) : running f s = .next (f s) := by
  simp [running, h]

/-- A write to the log (R91): the log, and the raises in their order, LOGLOSS only at a full log. -/
theorem writeLog_eq (x : LogEntry) (s : State) : writeLog x s = { s with
    log := if Config.logLimit ≤ s.log.entries.length then { entries := s.log.entries.drop 1 ++ [x], lost := true }
           else { s.log with entries := s.log.entries ++ [x] },
    link := ((if Config.logLimit ≤ s.log.entries.length then [.logLoss, .curtail] else [.curtail]).foldl
      (fun y k => raise k y) s).link } := by
  have r : ∀ (k : NoticeKind) (y : State), raise k y = { y with link := (raise k y).link } := by
    intro k y; obtain ⟨n, fs, h⟩ := raise_eq k y; rw [h]
  unfold writeLog
  split
  · next h =>
    rw [r .curtail]
    simp only [List.foldl, raise_log]
    rw [r .logLoss { s with log := _ }]
    simp only [State.mk.injEq, true_and, and_true]
    exact raise_link_congr _ (raise_link_congr _ rfl)
  · rw [r .curtail]
    simp only [List.foldl, State.mk.injEq, true_and, and_true]
    exact raise_link_congr _ rfl

end Sys2Proof.Machine
end

