-- ==== Sys2Proof/Laws/Duty.lean ====
section
/-! SUPPORT. What the chain of duty steps of one event can do: it writes slots, claims and raises, and nothing else. A property
kept by these three kinds of update is kept by the whole chain. -/

namespace Sys2Proof.Machine

/-- The property is kept by every update that the Duty Program Unit makes within an event. A slot keeps its steps, and
its list of results keeps its length or takes that of the steps. -/
structure KeptByDuty (P : State → Prop) : Prop where
  slot : ∀ (s : State) (i : SlotId) (x : ProgSlot), x.steps = (s.slot i).steps →
    (x.results.length = (s.slot i).results.length ∨ x.results.length = x.steps.length) → P s → P (s.setSlot i x)
  claim : ∀ (s : State) (c : Channel) (x : Claim), P s → P (s.setClaim c x)
  raise : ∀ (s : State) (k : NoticeKind), P s → P (Machine.raise k s)

namespace KeptByDuty

variable {P : State → Prop} (h : KeptByDuty P)
include h

theorem modifySlot {s : State} (i : SlotId) (f : ProgSlot → ProgSlot) (hs : (f (s.slot i)).steps = (s.slot i).steps)
    (hr : (f (s.slot i)).results.length = (s.slot i).results.length ∨
      (f (s.slot i)).results.length = (f (s.slot i)).steps.length) (hp : P s) : P (s.modifySlot i f) :=
  h.slot s i _ hs hr hp

theorem beginStep (i : SlotId) (idx : Nat) {s : State} (hp : P s) : P (Machine.beginStep i idx s).1 := by
  unfold Machine.beginStep
  split
  · exact hp
  · next st _ =>
    have h₁ : P (s.modifySlot i fun x =>
        { x with curStep := idx, phase := .claiming, dips := 0, reach := some (st.reachMin * 60), hold := none }) :=
      h.modifySlot i _ (by rfl) (by left; rfl) hp
    simp only
    split
    · exact h₁
    · split
      · exact h.claim _ _ _ h₁
      · exact h₁

theorem takeClaim (c : Channel) (i : SlotId) {s : State} (hp : P s) : P (Machine.takeClaim c i s).1 := by
  unfold Machine.takeClaim
  split
  · exact hp
  · simp only
    split
    · split
      · exact h.claim _ _ _ hp
      · dsimp only
        exact h.modifySlot i _ (by rfl) (by left; rfl) (h.claim _ _ _ hp)
    · dsimp only
      exact h.modifySlot i _ (by rfl) (by left; rfl) (h.claim _ _ _ hp)

theorem releaseStep (i : SlotId) {s : State} (hp : P s) : P (Machine.releaseStep i s).1 := by
  unfold Machine.releaseStep
  split
  · exact hp
  · simp only
    split <;> exact h.claim _ _ _ hp

theorem recordResult (i : SlotId) (r : StepResult) {s : State} (hp : P s) : P (Machine.recordResult i r s) :=
  h.modifySlot i _ (by rfl) (by left; simp) hp

theorem endPass (i : SlotId) {s : State} (hp : P s) : P (Machine.endPass i s) := by
  unfold Machine.endPass
  simp only
  repeat' split
  all_goals first
    | exact h.raise _ _ (h.slot _ _ _ (by rfl) (by left; rfl) hp)
    | exact h.slot _ _ _ (by rfl) (by left; rfl) hp

theorem runTask (t : DutyTask) {s : State} (hp : P s) : P (Machine.runTask t s).1 := by
  cases t with
  | begin_ i idx => exact h.beginStep i idx hp
  | take c i => exact h.takeClaim c i hp
  | passOn c =>
    simp only [Machine.runTask, passOnClaim]
    split <;> exact hp
  | pass i =>
    simp only [Machine.runTask, passStep]
    exact h.modifySlot i _ (by rfl) (by left; rfl) (h.releaseStep i (h.recordResult i _ hp))
  | fail i r => exact h.releaseStep i hp
  | settle i r =>
    simp only [Machine.runTask, settleFailure]
    split
    · dsimp only
      exact h.modifySlot i _ (by rfl) (by left; rfl) (h.recordResult i _ hp)
    · dsimp only
      exact h.raise _ _ (h.modifySlot i _ (by rfl) (by left; rfl) (h.modifySlot i _ (by rfl) (by left; rfl) (h.recordResult i _ hp)))
  | goOn i =>
    simp only [Machine.runTask, goOnSlot]
    split
    · exact hp
    · exact h.endPass i hp

theorem runTasks (n : Nat) (ts : List DutyTask) {s : State} (hp : P s) : P (Machine.runTasks n ts s) := by
  induction n generalizing ts s with
  | zero => exact hp
  | succ n ih =>
    cases ts with
    | nil => exact hp
    | cons t ts => exact ih _ (h.runTask t hp)

theorem runDuty (ts : List DutyTask) {s : State} (hp : P s) : P (Machine.runDuty ts s) :=
  h.runTasks _ ts hp

theorem failStepsOn (c : Channel) (r : FailReason) {s : State} (hp : P s) : P (Machine.failStepsOn c r s) :=
  h.runDuty _ hp

theorem beginPass (i : SlotId) (m : Nat) {s : State} (hp : P s) : P (Machine.beginPass i m s) :=
  h.runDuty _ (h.modifySlot i _ (by rfl) (by right; simp) hp)

end KeptByDuty

/-- What duty steps leave alone: every block but the slots, the claims, the pending set and the transmit order. -/
def dutyFrame (s t : State) : Prop :=
  t.rstLow = s.rstLow ∧ t.xlat = s.xlat ∧ t.outlets = s.outlets ∧ t.pools = s.pools ∧ t.demands = s.demands ∧
  t.curtail = s.curtail ∧ t.log = s.log ∧ t.drive = s.drive ∧ t.handoff = s.handoff ∧ t.sensors = s.sensors ∧
  t.clock = s.clock ∧ t.msPhase = s.msPhase ∧ t.pending = s.pending ∧
  t.link = { s.link with notices := t.link.notices, tx := t.link.tx }

theorem keptByDuty_frame (s : State) : KeptByDuty (dutyFrame s) where
  slot t i x _ _ h := by simpa [dutyFrame] using h
  claim t c x h := by simpa [dutyFrame] using h
  raise t k h := by
    obtain ⟨n, fs, hr⟩ := raise_eq k t
    rw [hr]
    obtain ⟨h1, h2, h3, h4, h5, h6, h7, h8, h9, h10, h11, h12, h13, h14⟩ := h
    refine ⟨h1, h2, h3, h4, h5, h6, h7, h8, h9, h10, h11, h12, h13, ?_⟩
    simp only
    rw [h14]

theorem runDuty_frame (ts : List DutyTask) (s : State) : dutyFrame s (runDuty ts s) :=
  (keptByDuty_frame s).runDuty ts ⟨rfl, rfl, rfl, rfl, rfl, rfl, rfl, rfl, rfl, rfl, rfl, rfl, rfl, rfl⟩

theorem failStepsOn_frame (c : Channel) (r : FailReason) (s : State) : dutyFrame s (failStepsOn c r s) :=
  runDuty_frame _ s

end Sys2Proof.Machine
end

