-- ==== Sys2Proof/Laws/Drive.lean ====
section
/-! SUPPORT. What the Drive Unit and its reports can do within one event: they write position records, the motion queue, the
outlet records a report changes, and, through the duty steps a report fails, what Laws/Duty.lean names. A property kept
by these updates is kept by every operation of Machine/Drive.lean. -/

namespace Sys2Proof.Machine

/-- What a report to the Outlet Table can make of a record: fixed part, profile sets, bars and feeder fields stay, and a
right grant stays right. -/
def reportedAs (o o' : Outlet) : Prop :=
  o'.fixed = o.fixed ∧ o'.setA = o.setA ∧ o'.setB = o.setB ∧ o'.bars = o.bars ∧ o'.feederOf = o.feederOf ∧
  o'.feederDemand = o.feederDemand ∧ ∀ e : Bool, o.grantsRight e → o'.grantsRight e

/-- The property is kept by every update that the Drive Unit, and the Outlet Table on its reports, make within an event.
A position record stays within its ranges, and a move begins only where a slot is free. -/
structure KeptByDrive (P : State → Prop) : Prop extends KeptByDuty P where
  position : ∀ (s : State) (c : Channel) (p : Position), ((s.position c).inRange → p.inRange) →
    (p.move.isSome = true → (s.position c).move.isSome = true ∨ s.slotFree = true) → P s → P (s.setPosition c p)
  queue : ∀ (s : State) (a b : List Channel), P s → P { s with drive := { s.drive with closing := a, opening := b } }
  report : ∀ (s : State) (c : Channel) (o o' : Outlet), s.outlet c = some o → reportedAs o o' → P s →
    P (s.setOutlet c (some o'))

theorem modifyOutlet_absent {s : State} {c : Channel} (f : Outlet → Outlet) (h : s.outlet c = none) :
    s.modifyOutlet c f = s := by
  unfold State.modifyOutlet State.setOutlet
  rw [h, Option.map_none, ← h, State.outlet, Table.set_get]

theorem modifyOutlet_present {s : State} {c : Channel} {o : Outlet} (f : Outlet → Outlet) (h : s.outlet c = some o) :
    s.modifyOutlet c f = s.setOutlet c (some (f o)) := by
  unfold State.modifyOutlet
  rw [h, Option.map_some]

/-! ### Records of the Drive Unit -/

theorem addTravel_inRange (d : Nat) {p : Position} (h : p.inRange) : (addTravel d p).inRange := by
  obtain ⟨h₁, h₂, h₃, h₄⟩ := h
  refine ⟨h₁, h₂, ?_, ?_⟩
  · exact Nat.min_le_left ..
  · intro hd
    simp only [addTravel, Bool.or_eq_false_iff, decide_eq_false_iff_not, Nat.not_le] at hd ⊢
    exact hd.2

theorem estimate_le {est : Nat} (m : Move) (h : est ≤ 1000) : estimate est m ≤ 1000 := by
  unfold estimate
  split
  · omega
  · exact Nat.min_le_left ..

theorem estimateLeg_inRange {p : Position} (h : p.inRange) : (estimateLeg p).inRange := by
  unfold estimateLeg
  split
  · exact h
  · next m _ => exact addTravel_inRange _ ⟨estimate_le m h.1, h.2.1, h.2.2.1, h.2.2.2⟩

@[simp] theorem estimateLeg_isSome (p : Position) : (estimateLeg p).move.isSome = p.move.isSome := by
  unfold estimateLeg
  split <;> simp_all [addTravel]

theorem faultPosition_inRange (olim clim : Bool) {p : Position} (h : p.inRange) : (faultPosition olim clim p).inRange := by
  have he : faultEst olim clim p ≤ 1000 := by
    unfold faultEst
    split
    · omega
    · omega
    · split
      · next m _ => exact estimate_le m h.1
      · exact h.1
  have ht := addTravel_inRange (match p.move with
    | some m => m.driven
    | none => 0) h
  exact ⟨he, fun t ht => by simp [faultPosition] at ht, ht.2.2.1, ht.2.2.2⟩

theorem completedPosition_inRange (m : Move) {est : Nat} (known : Bool) {p : Position} (he : est ≤ 1000) (h : p.inRange) :
    (completedPosition m est known p).inRange := by
  have hq : (addTravel m.driven { p with est, known, move := none }).inRange :=
    addTravel_inRange _ ⟨he, h.2.1, h.2.2.1, h.2.2.2⟩
  unfold completedPosition
  simp only
  split
  · refine ⟨Nat.zero_le _, ?_, Nat.zero_le _, fun _ => by simp [homedPosition, Config.driftTravel]⟩
    intro t ht
    simp only [homedPosition] at ht
    split at ht
    · cases ht; omega
    · exact hq.2.1 t ht
  · exact hq

@[simp] theorem completedPosition_move (m : Move) (est : Nat) (known : Bool) (p : Position) :
    (completedPosition m est known p).move = none := by
  unfold completedPosition
  simp only
  split <;> rfl

/-! ### Reports -/

theorem leaveEligible_reported (dest : OutletState) (hd : dest.eligible = false) (hl : dest ≠ .locked) (o : Outlet)
    (r : Bool) : reportedAs o { leaveEligible dest o with recovery := r } := by
  refine ⟨rfl, rfl, rfl, rfl, rfl, rfl, fun e _ => ⟨fun _ => rfl, ?_⟩⟩
  intro h
  rcases h with h | h
  · simp [leaveEligible, hd] at h
  · exact absurd h hl

theorem lastFault_reported (k : FaultKind) (o : Outlet) : reportedAs o { o with lastFault := some k } :=
  ⟨rfl, rfl, rfl, rfl, rfl, rfl, fun _ h => h⟩

theorem faulted_reported (o : Outlet) (r : Bool) (h : o.state.eligible = false) :
    reportedAs o { o with state := .faulted, recovery := r } := by
  refine ⟨rfl, rfl, rfl, rfl, rfl, rfl, fun e ho => ⟨fun _ => ho.1 (.inl h), ?_⟩⟩
  intro hx
  rcases hx with hx | hx <;> cases hx

theorem homed_reported (o : Outlet) :
    reportedAs o { o with
      assumedDraw := 0, recovery := false,
      state := if o.state = .homing then (if o.bars.all then .locked else .idle) else o.state } := by
  refine ⟨rfl, rfl, rfl, rfl, rfl, rfl, fun e ho => ⟨?_, fun _ => rfl⟩⟩
  intro hx
  dsimp only at hx ⊢
  by_cases hh : o.state = .homing
  · exact ho.1 (.inl (by simp [hh, OutletState.eligible]))
  · rw [if_neg hh] at hx
    exact ho.1 hx

/-! ### Operations -/

namespace KeptByDrive

variable {P : State → Prop} (h : KeptByDrive P)
include h

theorem modifyPosition {s : State} (c : Channel) (f : Position → Position)
    (hr : (s.position c).inRange → (f (s.position c)).inRange)
    (hm : (f (s.position c)).move.isSome = true → (s.position c).move.isSome = true ∨ s.slotFree = true) (hp : P s) :
    P (s.modifyPosition c f) :=
  h.position s c _ hr hm hp

theorem modifyOutlet {s : State} (c : Channel) (f : Outlet → Outlet) (hf : ∀ o, s.outlet c = some o → reportedAs o (f o))
    (hp : P s) : P (s.modifyOutlet c f) := by
  cases ho : s.outlet c with
  | none => rw [modifyOutlet_absent f ho]; exact hp
  | some o => rw [modifyOutlet_present f ho]; exact h.report _ _ _ _ ho (hf o ho) hp

theorem addEntry (d : MoveDir) (c : Channel) {s : State} (hp : P s) : P (Machine.addEntry d c s) := by
  cases d
  · exact h.queue s _ _ hp
  · exact h.queue s _ _ hp

theorem removeEntry (c : Channel) {s : State} (hp : P s) : P (Machine.removeEntry c s) :=
  h.queue s _ _ hp

variable {arb : State → State} (ha : ∀ s, P s → P (arb s))
include ha

theorem joinQueue (d : MoveDir) (c : Channel) {s : State} (hp : P s) : P (Machine.joinQueue arb d c s) := by
  unfold Machine.joinQueue
  split
  · exact hp
  · exact ha _ (h.addEntry d c hp)

theorem applyNeed (c : Channel) {s : State} (hp : P s) : P (Machine.applyNeed arb c s) := by
  unfold Machine.applyNeed
  split
  · exact hp
  · exact h.joinQueue ha _ c hp
  · exact h.removeEntry c hp
  · split
    · exact hp
    · exact h.joinQueue ha _ c (h.removeEntry c hp)

omit ha in
theorem dropMove {s : State} (c : Channel) (hp : P s) : P (s.modifyPosition c fun p => { p with move := none }) :=
  h.modifyPosition c _ (fun x => x) (by simp) hp

omit ha in
theorem setPause {s : State} (c : Channel) (t : Timer) (hp : P s) :
    P (s.modifyPosition c fun p => { p with pause := t }) :=
  h.modifyPosition c _ (fun x => x) .inl hp

theorem reverseMove (d : MoveDir) (c : Channel) {s : State} (hp : P s) : P (Machine.reverseMove arb d c s) :=
  h.joinQueue ha d c (h.setPause c _ (ha _ (h.dropMove c hp)))

omit ha in
theorem renewMove (c : Channel) {s : State} (hp : P s) : P (Machine.renewMove c s) := by
  refine h.modifyPosition c _ ?_ ?_ hp
  · intro hx
    dsimp only
    split
    · exact hx
    · exact hx
  · intro hx
    left
    cases hm : (s.position c).move with
    | none => simp [hm] at hx
    | some m => rfl

omit ha in
theorem estimated {s : State} (c : Channel) (hp : P s) : P (s.modifyPosition c estimateLeg) :=
  h.modifyPosition c _ estimateLeg_inRange (fun hm => .inl (by simpa using hm)) hp

theorem homingRequest (c : Channel) {s : State} (hp : P s) : P (Machine.homingRequest arb c s) := by
  have h₁ : P (s.modifyPosition c fun p => { p with homeReq := true }) :=
    h.modifyPosition c _ (fun x => x) .inl hp
  unfold Machine.homingRequest
  simp only
  split
  · split
    · exact h.joinQueue ha _ c h₁
    · exact h₁
    · exact h.joinQueue ha _ c (h.removeEntry c h₁)
  · split
    · exact h₁
    · split
      · exact h.renewMove c (h.estimated c h₁)
      · exact h.reverseMove ha _ c (h.estimated c h₁)

theorem faultReport (c : Channel) (k : FaultKind) {s : State} (hp : P s) : P (Machine.faultReport arb c k s) := by
  unfold Machine.faultReport
  split
  · exact hp
  · next o ho =>
    have h₀ : P (s.modifyPosition c fun p => { p with known := false }) :=
      h.modifyPosition c _ (fun x => x) .inl hp
    have h₁ := h.raise _ .travel (h.report _ c o { o with lastFault := some k } (by simpa using ho)
      (lastFault_reported k o) h₀)
    have hs : ∀ o', (Machine.raise .travel ((s.modifyPosition c fun p => { p with known := false }).setOutlet c
        (some { o with lastFault := some k }))).outlet c = some o' → o' = { o with lastFault := some k } := by
      intro o' ho'
      simpa [State.outlet_setOutlet, eq_comm] using ho'
    simp only
    split
    · split
      · refine h.homingRequest ha c (h.modifyOutlet c _ ?_ h₁)
        exact fun o' _ => leaveEligible_reported .homing rfl (by decide) o' true
      · refine h.failStepsOn c _ (h.modifyOutlet c _ ?_ h₁)
        exact fun o' _ => leaveEligible_reported .faulted rfl (by decide) o' _
    · split
      · refine h.homingRequest ha c (h.modifyOutlet c _ ?_ h₁)
        exact fun o' _ => leaveEligible_reported .homing rfl (by decide) o' true
      · refine h.failStepsOn c _ (h.modifyOutlet c _ ?_ h₁)
        exact fun o' _ => leaveEligible_reported .faulted rfl (by decide) o' _
    · split
      · refine h.homingRequest ha c (h.modifyOutlet c _ ?_ h₁)
        exact fun o' _ => leaveEligible_reported .homing rfl (by decide) o' true
      · refine h.failStepsOn c _ (h.modifyOutlet c _ ?_ h₁)
        exact fun o' _ => leaveEligible_reported .faulted rfl (by decide) o' _
    · next hst =>
      refine h.failStepsOn c _ (h.modifyOutlet c _ ?_ h₁)
      intro o' ho'
      rw [hs o' ho']
      exact faulted_reported _ false (by simp [hst, OutletState.eligible])
    · next hst =>
      refine h.failStepsOn c _ (h.modifyOutlet c _ ?_ h₁)
      intro o' ho'
      rw [hs o' ho']
      exact faulted_reported _ _ (by simp [hst, OutletState.eligible])
    · exact hp
    · exact hp

theorem faultStop (held : Bool) (c : Channel) (k : FaultKind) {s : State} (hp : P s) :
    P (Machine.faultStop arb held c k s) := by
  have h₁ : P (Machine.removeEntry c (s.modifyPosition c (faultPosition (s.olimActive c) (s.climActive c)))) :=
    h.removeEntry c (h.modifyPosition c _ (faultPosition_inRange _ _) (by simp [faultPosition]) hp)
  unfold Machine.faultStop
  refine h.faultReport ha c k ?_
  split
  · exact ha _ h₁
  · exact h₁

omit ha in
theorem homingDone (c : Channel) {s : State} (hp : P s) : P (Machine.homingDone c s) :=
  h.modifyOutlet c _ (fun o _ => homed_reported o) hp

theorem completeMove (m : Move) {est : Nat} (known : Bool) (c : Channel) {s : State}
    (he : (s.position c).inRange → est ≤ 1000) (hp : P s) : P (Machine.completeMove arb m est known c s) := by
  have h₁ : P (arb (s.modifyPosition c (completedPosition m est known))) :=
    ha _ (h.modifyPosition c _ (fun x => completedPosition_inRange m known (he x) x) (by simp) hp)
  have h₂ : P (if m.kind = .homing then Machine.homingDone c (arb (s.modifyPosition c (completedPosition m est known)))
      else arb (s.modifyPosition c (completedPosition m est known))) := by
    split
    · exact h.homingDone c h₁
    · exact h₁
  unfold Machine.completeMove
  simp only
  split
  · exact h₂
  · split
    · exact h.joinQueue ha _ c h₂
    · exact h.joinQueue ha _ c (h.setPause c _ h₂)

theorem startMove (d : MoveDir) (c : Channel) {s : State} (hf : s.slotFree = true) (hp : P s) :
    P (Machine.startMove arb d c s) := by
  unfold Machine.startMove
  simp only
  split
  · exact h.faultStop ha _ c _ hp
  · split
    · refine h.completeMove ha _ _ c ?_ hp
      intro _
      split <;> omega
    · exact h.modifyPosition c _ (fun x => x) (fun _ => .inr hf) hp

omit ha in
theorem arbiter (n : Nat) {s : State} (hp : P s) : P (Machine.arbiter n s) := by
  induction n generalizing s with
  | zero => exact hp
  | succ n ih =>
    unfold Machine.arbiter
    split
    · next hf =>
      split
      · exact hp
      · exact ih (h.startMove (fun s => ih) _ _ hf (h.removeEntry _ hp))
    · exact hp

omit ha in
theorem runArbiter {s : State} (hp : P s) : P (Machine.runArbiter s) :=
  h.arbiter _ hp

omit ha in
theorem retarget (m : Move) (c : Channel) {s : State} (hp : P s) : P (Machine.retarget m c s) := by
  have h₁ := h.estimated c hp
  unfold Machine.retarget
  simp only
  split
  · exact h.runArbiter (h.dropMove c h₁)
  · split
    · exact h.renewMove c h₁
    · exact h.reverseMove (fun _ => h.runArbiter) _ c h₁

omit ha in
theorem giveTarget (c : Channel) {t : Nat} (ht : t ≤ 1000) {s : State} (hp : P s) : P (Machine.giveTarget c t s) := by
  have h₁ : P (s.modifyPosition c fun p => { p with target := some t }) := by
    refine h.modifyPosition c _ (fun x => ⟨x.1, ?_, x.2.2⟩) .inl hp
    intro t' ht'
    cases ht'
    exact ht
  unfold Machine.giveTarget
  simp only
  split
  · split
    · exact h₁
    · exact h.retarget _ c h₁
  · split
    · exact h₁
    · exact h.applyNeed (fun _ => h.runArbiter) c h₁

omit ha in
theorem stopChannel (c : Channel) {s : State} (hp : P s) : P (Machine.stopChannel c s) := by
  have h₁ : P (Machine.removeEntry c (s.modifyPosition c fun p =>
      { estimateLeg p with move := none, pause := none, homeReq := false, target := none })) := by
    refine h.removeEntry c (h.modifyPosition c _ (fun x => ?_) (by simp) hp)
    have hx := estimateLeg_inRange x
    refine ⟨hx.1, ?_, hx.2.2.1, hx.2.2.2⟩
    intro t ht
    simp at ht
  unfold Machine.stopChannel
  simp only
  split
  · exact h.runArbiter h₁
  · exact h₁

omit ha in
theorem requestHoming (c : Channel) {s : State} (hp : P s) : P (Machine.requestHoming c s) :=
  h.homingRequest (fun _ => h.runArbiter) c hp

omit ha in
theorem moveTimerExpiry (c : Channel) {s : State} (hp : P s) : P (Machine.moveTimerExpiry c s) := by
  have harb : ∀ s, P s → P (Machine.runArbiter s) := fun _ => h.runArbiter
  unfold Machine.moveTimerExpiry
  split
  · exact hp
  · split
    · unfold moveTimeout
      split
      · exact h.faultStop harb _ c _ hp
      · exact h.faultStop harb _ c _ hp
      · exact h.faultStop harb _ c _ hp
      · split
        · exact h.faultStop harb _ c _ hp
        · split
          · exact h.faultStop harb _ c _ hp
          · refine h.completeMove harb _ _ c (fun x => ?_) hp
            cases ht : (s.position c).target with
            | none => simpa using x.1
            | some t => simpa using x.2.1 t ht
    · exact hp

omit ha in
theorem checkTimerExpiry (c : Channel) {s : State} (hp : P s) : P (Machine.checkTimerExpiry c s) := by
  unfold Machine.checkTimerExpiry
  split
  · exact hp
  · next m hm =>
    split
    · split
      · exact h.faultStop (fun _ => h.runArbiter) _ c _ hp
      · exact h.modifyPosition c _ (fun x => x) (by simp [hm]) hp
    · exact hp

omit ha in
theorem pauseTimerExpiry (c : Channel) {s : State} (hp : P s) : P (Machine.pauseTimerExpiry c s) := by
  unfold Machine.pauseTimerExpiry
  split
  · simp only
    split
    · exact h.runArbiter (h.setPause c _ hp)
    · exact h.setPause c _ hp
  · exact hp

omit ha in
/-- What follows a change of a limit input, the level already taken. -/
theorem limitTaken (c : Channel) (line : LimitLine) (active : Bool) {s : State} (hp : P s) :
    P (match (s.position c).move with
      | some m => limitDuringMove m line active c s
      | none => limitAtStill c s) := by
  have harb : ∀ s, P s → P (Machine.runArbiter s) := fun _ => h.runArbiter
  split
  · next m hm =>
    unfold limitDuringMove
    split
    · exact h.faultStop harb _ c _ hp
    · split
      · exact h.completeMove harb _ _ c (fun _ => by omega) hp
      · exact h.completeMove harb _ _ c (fun _ => by omega) hp
      · exact h.modifyPosition c _ (fun x => x) (by simp [hm]) hp
      all_goals exact hp
  · unfold limitAtStill
    split
    · exact hp
    · split
      · exact h.faultStop harb _ c _ hp
      · exact h.applyNeed harb c hp

end KeptByDrive

/-! ### What the Drive Unit leaves alone -/

/-- Every block but the outlet records, the Drive Unit, the Duty Program Unit, the pending set and the transmit order; and,
of these, the limit inputs, the present records, and the parts of a record that reports do not write. -/
def driveFrame (s t : State) : Prop :=
  t.rstLow = s.rstLow ∧ t.xlat = s.xlat ∧ t.pools = s.pools ∧ t.demands = s.demands ∧ t.curtail = s.curtail ∧
  t.log = s.log ∧ t.handoff = s.handoff ∧ t.sensors = s.sensors ∧ t.clock = s.clock ∧ t.msPhase = s.msPhase ∧
  t.pending = s.pending ∧ t.link = { s.link with notices := t.link.notices, tx := t.link.tx } ∧
  t.drive.olim = s.drive.olim ∧ t.drive.clim = s.drive.clim ∧
  ∀ a : Channel, (t.outlet a).map (fun o => (o.fixed, o.setA, o.setB, o.bars, o.feederOf, o.feederDemand)) =
    (s.outlet a).map (fun o => (o.fixed, o.setA, o.setB, o.bars, o.feederOf, o.feederDemand))

theorem driveFrame_refl (s : State) : driveFrame s s :=
  ⟨rfl, rfl, rfl, rfl, rfl, rfl, rfl, rfl, rfl, rfl, rfl, rfl, rfl, rfl, fun _ => rfl⟩

theorem keptByDrive_frame (s : State) : KeptByDrive (driveFrame s) where
  slot t i x _ _ h := by simpa [driveFrame] using h
  claim t c x h := by simpa [driveFrame] using h
  raise t k h := by
    obtain ⟨n, fs, hr⟩ := raise_eq k t
    rw [hr]
    obtain ⟨h1, h2, h3, h4, h5, h6, h7, h8, h9, h10, h11, h12, h13, h14, h15⟩ := h
    refine ⟨h1, h2, h3, h4, h5, h6, h7, h8, h9, h10, h11, ?_, h13, h14, h15⟩
    simp only
    rw [h12]
  position t c p _ _ h := h
  queue t a b h := h
  report t c o o' ho hr h := by
    obtain ⟨h1, h2, h3, h4, h5, h6, h7, h8, h9, h10, h11, h12, h13, h14, h15⟩ := h
    refine ⟨h1, h2, h3, h4, h5, h6, h7, h8, h9, h10, h11, h12, h13, h14, fun a => ?_⟩
    rw [State.outlet_setOutlet, ← h15 a]
    split
    · next e =>
      subst e
      obtain ⟨r1, r2, r3, r4, r5, r6, _⟩ := hr
      rw [ho]
      simp [r1, r2, r3, r4, r5, r6]
    · rfl

/-! ### The motion queue (R100, R101), and the millisecond timers -/

variable {s : State}

theorem removeEntry_eq_withQueue (c : Channel) : removeEntry c s =
    s.withQueue (s.drive.closing.filter fun x => x ≠ c) (s.drive.opening.filter fun x => x ≠ c) := rfl

theorem not_mem_removeEntry (c : Channel) : c ∉ (removeEntry c s).drive.closing ++ (removeEntry c s).drive.opening := by
  simp [removeEntry]

theorem removeEntry_queueRight (c : Channel) (h : s.queueRight) : (removeEntry c s).queueRight := by
  refine ⟨?_, fun x hx => h.2 x ?_⟩
  · have := h.1.filter (fun x => decide (x ≠ c))
    rwa [List.filter_append] at this
  · simp only [removeEntry, List.mem_append, List.mem_filter] at hx ⊢
    exact hx.imp And.left And.left

/-- A still channel that has no entry may join either tier. -/
theorem addEntry_queueRight (d : MoveDir) {c : Channel} (h : s.queueRight) (hc : c ∉ s.drive.closing ++ s.drive.opening)
    (hm : (s.position c).move = none) : (addEntry d c s).queueRight := by
  have mem : ∀ x, x ∈ (addEntry d c s).drive.closing ++ (addEntry d c s).drive.opening ↔
      x = c ∨ x ∈ s.drive.closing ++ s.drive.opening := by
    intro x; cases d <;> simp [addEntry] <;> tauto
  refine ⟨?_, fun x hx => ?_⟩
  · have hn := h.1
    cases d <;> simp [addEntry, List.nodup_append] at hn hc ⊢ <;> grind
  · have e : (addEntry d c s).position x = s.position x := by cases d <;> rfl
    rw [e]
    rcases (mem x).1 hx with rfl | hx
    · exact hm
    · exact h.2 x hx

@[simp] theorem advanceMs_position (n : Nat) (c : Channel) : (advanceMs n s).position c = advancePosition n (s.position c) :=
  Table.get_map _ _ _

end Sys2Proof.Machine
end

