-- ==== Sys2Proof/Tests/Slice0.lean ====
section
/-! SUPPORT. Tests. The expected values are the spec's worked examples, named in each docstring, or hand calculation from its
tables. The second half shows, for every statement with hypotheses, concrete values that meet them together. -/

namespace Sys2Proof.Tests

-- One theorem after another: a worker thread each would take more memory than a check allows.
set_option Elab.async false

open Sys2Proof Sys2Proof.Machine

/-! ### Building small states -/

/-- The state an outcome goes on to. -/
def went (x : Host.Outcome State Fault Refusal) : State :=
  match x with
  | .next t => t
  | .fault _ | .refused _ => State.reset

/-- A frame of numbers. -/
def frame (kind : Nat) (payload : List Nat) : Frame :=
  { kind := byte kind, tag := 0x11, payload := payload.map byte }

/-- The frame waits alone for execution. -/
def asked (f : Frame) (s : State) : State :=
  { s with link := { s.link with queue := [f] } }

/-- The state after the execution of a request. -/
def ran (kind : Nat) (payload : List Nat) (s : State) : State :=
  went (exec (requestRow (frame kind payload)) (asked (frame kind payload) s))

/-- The payload of the reply made last: status and data. -/
def reply (s : State) : List Nat :=
  (s.link.tx.getLast?.map fun f => f.payload.map BitVec.toNat).getD []

def profile : Profile :=
  { cls := .guest, floorKw := 100, maxKw := 400, weight := 10, warmKw := 0, tolerance := 3 }

/-- A STEAM outlet of 400 kW and stroke 90 s. -/
def outlet (st : OutletState) : Outlet :=
  { fixed := { pool := .steam, ratedKw := 400, strokeS := 90, fallbackKw := 50, autoRecover := false, warmTemp := 950,
               warmMaxS := 600 },
    setA := profile, setB := profile, bars := { host := false, prog := false, all := false }, state := st, grant := 0,
    effDemand := 0, assumedDraw := 0, feederOf := none, feederDemand := 0, warmTimer := none, recovery := false,
    lastFault := none }

/-- Reset, with that outlet on channel 5. -/
def plant (st : OutletState) : State :=
  State.reset.setOutlet 5 (some (outlet st))

/-- The limit inputs of channel 5. -/
def limits (olim clim : Bool) (s : State) : State :=
  setLimit 5 .olim olim (setLimit 5 .clim clim s)

/-- Channel 5 at an estimate with a target and a move. -/
def driving (est : Nat) (target : Option Nat) (m : Option Move) (s : State) : State :=
  s.setPosition 5 { resetPosition with est, known := true, target, move := m }

def closing (kind : MoveKind) (timer elapsed : Nat) : Move :=
  { dir := .closing, kind, timer, elapsed, stroke := 120, check := none }

def step5 : Step :=
  { channel := 5, kw := 500, cls := .sanitary, targetTemp := 700, reachMin := 30, holdMin := 10 }

/-- A slot whose only step is in progress. -/
def busySlot (ph : Phase) : ProgSlot :=
  { resetSlot with steps := [step5], loops := 1, loopsLeft := 1, state := .running, curStep := 1, phase := ph,
                   results := [.notRun] }

/-- Slot 0 holds the claim of channel 5. -/
def claimed (ph : Phase) : State :=
  ((plant .serving).setSlot 0 (busySlot ph)).setClaim 5 { holder := some { slot := 0, step := 1, kw := 400 }, waiters := [] }

/-! ### Well-formedness: each check refuses an ill-formed term -/

theorem test_wellFormed_arrival : (Instr.frameArrival []).wellFormed = false := by decide
theorem test_wellFormed_reading_high : (Instr.sampleEvent 3 32768).wellFormed = false := by decide
theorem test_wellFormed_reading_low : (Instr.sampleEvent 3 (-32769)).wellFormed = false := by decide
theorem test_wellFormed_frame : (Frame.mk 1 2 (List.replicate 119 0)).wellFormed = false := by decide
theorem test_wellFormed_good : (Instr.sampleEvent 3 32767).wellFormed = true := by decide

/-! ### Decoding: no word spells a command; a KIND calls for its row (11.4) -/

theorem test_decodeTableWord : decodeTableWord 16 0x1234 = none := by decide
theorem test_withFetchWord : State.reset.withFetchWord 16 0x1234 = State.reset := by decide +kernel
theorem test_kind_first : requestRow (frame 0x01 []) = .outletSet := by decide
theorem test_kind_last : requestRow (frame 0x1A []) = .reset := by decide
theorem test_kind_next_part : requestRow (frame 0x0E [0, 1]) = .progLoadNext := by decide
theorem test_kind_unknown : requestRow (frame 0x1B []) = .badKind ∧ requestRow (frame 0 []) = .badKind := by decide

/-! ### Link: CRC, receiver, transmitter, resets (R177 to R189, 11.8) -/

/-- The check value of the CRC with polynomial 0x1021 and start 0xFFFF. -/
theorem test_crc : crc16 [0x31, 0x32, 0x33, 0x34, 0x35, 0x36, 0x37, 0x38, 0x39] = 0x29B1 := by decide +kernel
theorem test_frameArrival_noise : (went (exec (.frameArrival ([0x00, 0x3C, 0x01] ++ frameBytes (frame 0x17 []))) State.reset)).link.queue
    = [frame 0x17 []] := by decide +kernel
/-- 11.8: a sixth frame meets a full queue and is answered QUEUE_FULL at once. -/
theorem test_frameArrival_full : reply (went (exec (.frameArrival (frameBytes (frame 0x16 [])))
    { State.reset with link := { State.reset.link with queue := List.replicate 4 (frame 0x05 []) } })) = [2] := by decide +kernel
theorem test_gapTimerExpiry : (went (exec .gapTimerExpiry { State.reset with
    link := { State.reset.link with rxBuf := some (0x05 :: frameBytes (frame 0x17 [])), rxGap := some 0 } })).link.queue
    = [frame 0x17 []] := by decide +kernel
theorem test_badKind : reply (ran 0x1B [1, 2] State.reset) = [3] := by decide +kernel
theorem test_frameSent : (went (exec .frameSent (ran 0x17 [] State.reset))).link.tx = [] := by decide +kernel
theorem test_reset : went (exec .frameSent (ran 0x1A [] (plant .idle))) = State.reset := by decide +kernel
theorem test_rstnAsserted : (went (exec .rstnAsserted State.reset)).rstLow = true := by decide +kernel
theorem test_hardwareReset : (went (exec (.hardwareReset true false) (plant .idle))).link.speed = .b115200 := by decide +kernel
theorem test_noticeAck : reply (ran 0x18 [0x01] (raise .stale (raise .curtail { State.reset with
    link := { State.reset.link with mask := 0xFF } }))) = [0, 0x80, 0xFF] := by decide +kernel
theorem test_noticeMask : (ran 0x19 [0x7F] (raise .stale { State.reset with
    link := { State.reset.link with mask := 0xFF } })).link.tx.map (fun f => f.payload)
    = [[0x80, 0x7F, 0x80], [0x00, 0x80, 0x7F]] := by decide +kernel

/-! ### Branch addressing: the hotel point list (10.6) -/

def hotel : Translator :=
  { ranges := ((resetTranslator.ranges.set 0
      { enable := true, base := 256, size := 16, mapped := false, chanBase := 16, mapBase := 0 }).set 1
      { enable := true, base := 512, size := 64, mapped := true, chanBase := 0, mapBase := 64 }).set 2
      { enable := true, base := 1024, size := 64, mapped := false, chanBase := 0, mapBase := 0 },
    map := ((resetTranslator.map.set 65 { valid := true, channel := 32 }).set 66 { valid := true, channel := 33 }).set 68
      { valid := true, channel := 40 } }

theorem test_translations : [0x8005, 0x8030, 0x0103, 0x0201, 0x0203, 0x0204, 0x044A, 0x0432, 0x0300].map (translate hotel)
    = [.ok 5, .error .noOutlet, .ok 19, .ok 32, .error .unmapped, .ok 40, .error .noOutlet, .error .noOutlet,
       .error .noOutlet] := by decide +kernel
theorem test_rangeSet_stores : (ran 0x0C [1, 1, 2, 0, 0, 64, 1, 0, 64] State.reset).xlat.ranges.get 1 =
    { enable := true, base := 512, size := 64, mapped := true, chanBase := 0, mapBase := 64 } := by decide +kernel
theorem test_rangeSet_overlap : reply (ran 0x0C [3, 1, 2, 0, 1, 0, 0, 0, 0] { State.reset with xlat := hotel }) = [0x0C, 1] ∧
    reply (ran 0x0C [3, 1, 1, 128, 1, 0, 0, 0, 0] { State.reset with xlat := hotel }) = [5] := by decide +kernel
theorem test_mapSet : (ran 0x0D [65, 1, 32, 1, 33, 0, 9, 1, 40] State.reset).xlat.map = hotel.map ∧
    (reply (ran 0x0D [126, 1, 5, 1, 6] State.reset)) = [0, 1, 5, 1, 6] := by decide +kernel
theorem test_mapSet_refused : reply (ran 0x0D [127, 1, 5, 1, 6] State.reset) = [5, 0] ∧
    reply (ran 0x0D [0, 1, 47, 1, 48] State.reset) = [5, 2] := by decide +kernel

/-! ### Outlet Table -/

/-- R7: FLOOR_KW is limited to the clamped MAX_KW; R9: the new outlet homes. -/
theorem test_outletSet : ((ran 0x01 [0x80, 5, 0, 0x09, 0xC4, 0, 90, 0, 0, 0, 0, 0, 0, 0, 2, 0x0B, 0xB8, 1, 0x90, 0, 0, 0, 0]
      State.reset).outlet 5).map (fun o => (o.fixed.ratedKw, o.setA.floorKw, o.setA.maxKw, o.setB.weight, o.setB.tolerance,
        o.state)) = some (2000, 400, 400, 1, 1, .homing) := by decide +kernel
theorem test_outletSet_serving : reply (ran 0x01 [0x80, 5, 0, 1, 0x90, 0, 90, 0, 0, 0, 0, 0, 0, 0, 2, 0, 0, 1, 0x90, 1, 0, 0, 1]
    (plant .serving)) = [9] := by decide +kernel
theorem test_outletDrop : (ran 0x02 [0x80, 5] (plant .idle)).outlet 5 = none ∧ reply (ran 0x02 [0x80, 5] (plant .held)) = [9] := by
  decide +kernel
theorem test_profileSet : ((ran 0x03 [0x80, 5, 1, 0, 0, 10, 0, 20, 3, 0, 0, 7] (plant .idle)).outlet 5).map (fun o => o.setB) =
    some { cls := .sanitary, floorKw := 10, maxKw := 20, weight := 3, warmKw := 0, tolerance := 7 } := by decide +kernel
theorem test_profileSet_active : reply (ran 0x03 [0x80, 5, 0, 0, 0, 10, 0, 20, 3, 0, 0, 7] (plant .idle)) = [9] := by decide +kernel
theorem test_barSet : ((ran 0x04 [0x80, 5, 0, 0, 1] (limits false true (plant .serving))).outlet 5).map (fun o => (o.state, o.bars.all))
    = some (.locked, true) := by decide +kernel
theorem test_rehome : ((ran 0x06 [0x80, 5] (State.reset.setOutlet 5 (some { outlet .serving with grant := 64 }))).outlet 5).map
    (fun o => (o.state, o.grant, o.assumedDraw)) = some (.homing, 0, 64) := by decide +kernel
theorem test_faultClear : ((ran 0x07 [0x80, 5] (plant .faulted)).position 5).homeReq = true ∧
    reply (ran 0x07 [0x80, 5] (plant .idle)) = [9] := by decide +kernel
theorem test_warmTimerExpiry : ((went (exec (.warmTimerExpiry 5) (State.reset.setOutlet 5 (some
    { outlet .warming with warmTimer := some 0 })))).outlet 5).map (fun o => (o.state, o.warmTimer)) = some (.serving, none) := by
  decide +kernel

/-! ### Demand Intake -/

/-- R75's example: RATED_KW 400, an item of 700 is DONE_CLAMPED; the unknown channel is NO_OUTLET. -/
theorem test_demand : reply (ran 0x05 [0x80, 5, 2, 0xBC, 0x80, 48, 0, 1] (plant .idle)) = [0, 1, 6] ∧
    (ran 0x05 [0x80, 5, 2, 0xBC, 0x80, 48, 0, 1] (plant .idle)).demand 5 = .current 400 300 := by decide +kernel
theorem test_stalenessTimerExpiry : (went (exec (.stalenessTimerExpiry 5) ((plant .idle).setDemand 5 (.current 70 0)))).demand 5
    = .stale 70 := by decide +kernel

/-! ### Supply Pools: the worked capacity cases (2.9) -/

theorem test_capacity_sagging : figuresOf 1200 0 10 800 64 = { b := 1200, a := 0, k := 800, h := 64, c := 800 } := by decide
theorem test_capacity_cases : (figuresOf 600 0 10 800 64).c = 368 ∧ (figuresOf 1200 0 10 250 64).c = 206 ∧
    (figuresOf 1200 0 10 500 64).c = 476 ∧ (figuresOf 205 120 10 1000 0).c = 184 ∧ (figuresOf 85 0 10 1000 0).c = 76 := by decide
/-- 2.9: the feeder grants 100 at 85 %, and the storage counts 120. -/
theorem test_capacity_hw : (capacity (.hw .hw1) (((State.reset.setHwPart .hw1
    { feeder := some 5, coilYieldPct := 85, storeKw := 120, storeTemp := 550 }).setOutlet 5 (some
    { outlet .serving with grant := 100 })).setSensor 49 { resetSensor with lastGood := 582 })).b = 205 := by decide +kernel
theorem test_poolSet_steam : (ran 0x08 [0, 0, 1, 60, 0, 5, 200, 0, 5, 101, 3, 32, 2, 88, 1, 244] State.reset).pools.steam.settings =
    { enable := false, periodS := 2, reservePct := 50, demandStaleS := 10, deadband := 100 } := by decide +kernel
theorem test_poolSet_feeder : ((ran 0x08 [1, 0, 10, 0, 0, 60, 20, 0x80, 5, 85, 0, 0, 2, 0x26] (plant .idle)).outlet 5).map
    (fun o => o.feederOf) = some (some .hw1) ∧
    reply (ran 0x08 [2, 0, 10, 0, 0, 60, 20, 0x80, 6, 85, 0, 0, 2, 0x26] (plant .idle)) = [0x0B] := by decide +kernel
theorem test_supply : (ran 0x0A [0x27, 0x10] State.reset).pools.steamPart.cd = 8000 ∧
    reply (ran 0x0A [0x27, 0x10] State.reset) = [1] := by decide +kernel
theorem test_capacityStalenessExpiry : (went (exec .capacityStalenessExpiry (State.reset.setSteamPart
    { State.reset.pools.steamPart with capTimer := some 0 }))).isPending .stale = true := by decide +kernel
theorem test_profileSwap : (ran 0x09 [0] State.reset).pools.steam.swapPending = true ∧ reply (ran 0x09 [3] State.reset) = [5] := by
  decide +kernel

/-! ### The allocation round (3.13, 3.14, 3.16) -/

def part (ch : Channel) (cls : ServiceClass) (weight e fu : Nat) : Part :=
  { ch, cls, weight, e, fu, g := 0 }

def grants (ps : List Part) : List Nat :=
  ps.map fun p => p.g

theorem test_round_pressure_sag : grants (allocate 800 [part 3 .sanitary 8 200 100, part 7 .process 8 300 150,
    part 8 .process 4 250 50, part 12 .guest 10 400 100, part 20 .deferrable 5 150 0]) = [200, 300, 200, 100, 0] := by decide +kernel
theorem test_round_floors : grants (allocate 100 [part 2 .sanitary 1 50 50, part 6 .sanitary 1 70 70, part 7 .process 1 9 9])
    = [41, 59, 0] := by decide +kernel
theorem test_round_leftover : grants (allocate 10 [part 10 .guest 1 5 0, part 11 .guest 1 5 0, part 15 .guest 1 5 0])
    = [4, 3, 3] := by decide +kernel
theorem test_round_three_passes : grants (allocate 783 [part 21 .guest 2 80 30, part 22 .guest 6 500 100, part 23 .guest 4 260 40])
    = [80, 443, 260] := by decide +kernel
theorem test_targets : [targetOf 200 250, targetOf 300 400, targetOf 200 400, targetOf 100 600, targetOf 0 300]
    = [800, 750, 500, 167, 0] := by decide
theorem test_feederDemand : [feederDemandOf 520 120 85 600, feederDemandOf 100 120 85 600, feederDemandOf 900 0 85 600]
    = [471, 0, 600] := by decide

/-- The STEAM pool enabled with CD 300 and full pressure, the outlet IDLE with a demand of 400. -/
def steamOn : State :=
  (((plant .idle).setPool .steam { State.reset.pools.steam with
    settings := { State.reset.pools.steam.settings with enable := true }, roundTimer := some 0 }).setSteamPart
    { State.reset.pools.steamPart with cd := 300 }).setDemand 5 (.current 400 60) |>.setSensor 48
    { resetSensor with lastGood := 1000 }

theorem test_roundTimerExpiry : ((went (exec (.roundTimerExpiry .steam) (limits false true steamOn))).outlet 5).map
    (fun o => (o.grant, o.effDemand, o.state)) = some (300, 400, .serving) := by decide +kernel
theorem test_rebalance : reply (ran 0x0B [0] (limits false true steamOn)) = [0, 1, 44, 1, 44] ∧
    reply (ran 0x0B [1] steamOn) = [9] := by decide +kernel

/-! ### Curtailment: the seven rounds of 5.7 -/

def spaRound (e fu grant : Nat) : RoundResult :=
  { channel := 5, pool := .steam, cls := .guest, e, fu, grant }

def spa : List State :=
  [spaRound 400 100 100, spaRound 400 100 100, spaRound 400 100 100, spaRound 400 100 100, spaRound 400 100 60,
   spaRound 400 100 80, spaRound 150 100 150].scanl (fun s r => takeResult r s)
    ((plant .serving).setCurtailment 5 { counter := 3, floorCut := false })

theorem test_counter_and_flag : spa.map (fun s => ((s.curtailment 5).counter, (s.curtailment 5).floorCut)) =
    [(3, false), (2, false), (1, false), (0, false), (0, false), (0, true), (0, true), (3, false)] := by decide +kernel
theorem test_log_entries : (spa.getLast?.map fun s => s.log.entries.map fun x => (x.kind, x.e, x.grant)) =
    some [(.curtailed, 400, 100), (.floorCut, 400, 60), (.restored, 150, 150)] := by decide +kernel

def entry (n : Nat) : LogEntry :=
  { minute := 0, second := 0, channel := 5, pool := .steam, cls := .guest, kind := .curtailed, e := n, grant := 0 }

/-- 5.8: a write to a full log discards the oldest entry. -/
theorem test_log_full : ((writeLog (entry 99) { State.reset with log := { entries := (List.range 32).map entry, lost := false } }).log.lost,
    (writeLog (entry 99) { State.reset with log := { entries := (List.range 32).map entry, lost := false } }).log.entries.head?)
    = (true, some (entry 1)) := by decide +kernel
theorem test_readLog : (reply (ran 0x16 [] { State.reset with log := { entries := (List.range 9).map entry, lost := true } })).take 14
    = [0, 1, 1, 8, 0, 0, 0, 5, 0, 2, 0, 0, 0, 0] := by decide +kernel

/-! ### Drive Unit (6.11 to 6.13) -/

/-- 6.11: channel 3's move, 800 × stroke ms with a check of stroke × 100 ms, here with stroke 90. -/
theorem test_opening_start : ((giveTarget 5 800 (limits false true (driving 0 none none (plant .serving)))).position 5).move =
    some { dir := .opening, kind := .intermediate, timer := 72000, elapsed := 0, stroke := 90, check := some 9000 } := by
  decide +kernel
/-- 6.12: an early target the other way after 24000 ms reverses the move. -/
theorem test_reversal : ((giveTarget 5 750 (driving 667 (some 167) (some (closing .intermediate 36000 24000)) (plant .serving))).position
    5) = { est := 467, known := true, target := some 750, move := none, homeReq := false, travel := 200, drift := false,
           pause := some 2000 } := by decide +kernel
theorem test_moveTimerExpiry : ((went (exec (.moveTimerExpiry 5) (driving 750 (some 250) (some (closing .intermediate 0 60000))
    (plant .serving)))).position 5) =
    { est := 250, known := true, target := some 250, move := none, homeReq := false, travel := 500, drift := false,
      pause := none } := by decide +kernel
theorem test_moveTimerExpiry_fault : ((went (exec (.moveTimerExpiry 5) (driving 100 (some 0) (some (closing .toClosed 0 42000))
    (plant .serving)))).outlet 5).map (fun o => (o.state, o.lastFault)) = some (.faulted, some .noClosedLimit) := by decide +kernel
/-- 6.12: CLIM makes an intermediate closing move end early, and the channel pauses before the opening need. -/
theorem test_limitEvent_early : ((went (exec (.limitEvent 5 .clim true) (driving 300 (some 150) (some
    { closing .intermediate 3000 6000 with stroke := 60 }) (plant .serving)))).position 5) =
    { est := 0, known := true, target := some 150, move := none, homeReq := false, travel := 100, drift := false,
      pause := some 2000 } := by decide +kernel
/-- 6.13: a drift homing of 54600 ms ends on CLIM. -/
theorem test_limitEvent_drift : ((went (exec (.limitEvent 5 .clim true) ((plant .idle).setPosition 5 { resetPosition with
    est := 450, target := some 0, travel := 4010, drift := true, move := some (closing .homing 95400 54600) }))).position 5) =
    { est := 0, known := true, target := some 0, move := none, homeReq := false, travel := 0, drift := false,
      pause := none } := by decide +kernel
theorem test_checkTimerExpiry : ((went (exec (.checkTimerExpiry 5) (limits false true (driving 0 (some 800) (some
    { dir := .opening, kind := .intermediate, timer := 42000, elapsed := 6000, stroke := 60, check := some 0 }) (plant .serving))))).outlet
    5).map (fun o => o.lastFault) = some (some .stuck) := by decide +kernel
theorem test_pauseTimerExpiry : ((went (exec (.pauseTimerExpiry 5) { ((plant .serving).setPosition 5 { resetPosition with
    est := 467, target := some 750, pause := some 0 }) with
      drive := { ((plant .serving).setPosition 5 { resetPosition with est := 467, target := some 750, pause := some 0 }).drive with
        opening := [5] } })).position 5).move =
    some { dir := .opening, kind := .intermediate, timer := 25470, elapsed := 0, stroke := 90, check := none } := by decide +kernel

/-! ### Hand-off (7.7) -/

theorem test_bhoAssertion : ((went (exec (.bhoAssertion 0) (State.reset.setOutlet 5 (some
    { outlet .serving with grant := 120 })))).outlet 5).map (fun o => (o.state, o.grant, o.assumedDraw)) = some (.held, 0, 120) := by
  decide +kernel
theorem test_bhoRelease : ((went (exec (.bhoRelease 0) (went (exec (.bhoAssertion 0) (plant .idle))))).outlet 5).map
    (fun o => o.state) = some .homing := by decide +kernel

/-! ### Duty programs -/

def loadPayload : List Nat :=
  [0, 0, 1, 0xFF, 0xFF, 0, 0, 0, 0x80, 5, 0, 0, 0, 2, 0xBC, 30, 10]

/-- R140: KW 0 becomes 1. -/
theorem test_progLoadFirst : ((ran 0x0E loadPayload State.reset).slot 0).steps = [{ step5 with kw := 1 }] ∧
    reply (ran 0x0E loadPayload State.reset) = [1] := by decide +kernel
theorem test_progLoadNext : reply (ran 0x0E [0, 1, 0x80, 5, 0, 9, 4, 2, 0xBC, 30, 10] ((plant .idle).setSlot 0
    { resetSlot with steps := [step5], state := .loaded, results := [.notRun] })) = [5, 1] := by decide +kernel
theorem test_progStart : ((ran 0x0F [0] ((plant .idle).setSlot 0 { resetSlot with
    steps := [step5], loops := 1, state := .loaded, results := [.notRun] })).claim 5).holder = some { slot := 0, step := 1, kw := 400 } := by
  decide +kernel
theorem test_progStart_unset : reply (ran 0x0F [0] ((plant .idle).setSlot 0 { resetSlot with
    steps := [step5], start := some 5, state := .loaded, results := [.notRun] })) = [14] := by decide +kernel
theorem test_progStop : ((ran 0x10 [0] (claimed .reaching)).slot 0).state = .stopped ∧
    ((ran 0x10 [0] (claimed .reaching)).claim 5).holder = none := by decide +kernel
theorem test_reachTimerExpiry : ((went (exec (.reachTimerExpiry 0) ((claimed .reaching).setSlot 0
    { busySlot .reaching with reach := some 0 }))).slot 0).results = [.failed .timeout] := by decide +kernel
theorem test_holdTimerExpiry : ((went (exec (.holdTimerExpiry 0) ((claimed .holding).setSlot 0
    { busySlot .holding with hold := some 0 }))).slot 0).state = .done := by decide +kernel
theorem test_gapTimerExpiryProg : ((went (exec (.gapTimerExpiryProg 0) ((plant .idle).setSlot 0
    { busySlot .none with curStep := 0, gap := some 0 }))).slot 0).phase = .reaching := by decide +kernel

/-! ### Sensors and clock (9.7, 9.8) -/

theorem test_header_fails_and_recovers :
    [(false, 0), (false, 0), (true, 745), (true, 748), (false, 0), (true, 750), (true, 751), (true, 751)].scanl
      (fun x r => sampleRecord r.1 r.2 x) { lastGood := 742, faulted := false, badRun := 0, goodRun := 3 } =
    [⟨742, false, 0, 3⟩, ⟨742, false, 1, 0⟩, ⟨742, true, 2, 0⟩, ⟨745, true, 0, 1⟩, ⟨748, true, 0, 2⟩, ⟨748, true, 1, 0⟩,
     ⟨750, true, 0, 1⟩, ⟨751, true, 0, 2⟩, ⟨751, false, 0, 3⟩] := by decide
theorem test_sampleEvent_dip : ((went (exec (.sampleEvent 5 679) ((claimed .holding).setSlot 0
    { busySlot .holding with hold := some 300 }))).slot 0).dips = 1 := by decide +kernel
theorem test_sampleEvent_reached : ((went (exec (.sampleEvent 5 700) (claimed .reaching))).slot 0).hold = some 600 := by
  decide +kernel

def waiting1500 (minute second : Nat) : State :=
  { (plant .idle).setSlot 0 { busySlot .none with curStep := 0, state := .waiting, waitMinute := some 1500 } with
    clock := { minute, second, isSet := true } }

theorem test_clockTick : ((went (exec .clockTick (waiting1500 1499 59))).slot 0).state = .running ∧
    ((went (exec .clockTick (waiting1500 1500 0))).slot 0).state = .waiting := by decide +kernel
theorem test_clockTick_week : (went (exec .clockTick (waiting1500 10079 59))).clock = { minute := 0, second := 0, isSet := true } := by
  decide +kernel
/-- 400 of the second's milliseconds are counted already: the move, its leg and the receiver gap timer count the other 600 (log 3),
and the motion queue stands. -/
theorem test_clockTick_ms : ∀ s ∈ [(driving 500 (some 250) (some (closing .intermediate 6000 24000)) (plant .serving)).withQueue
      [4] [9]], ∀ t ∈ [went (exec .clockTick { s with msPhase := 400, link := { s.link with rxGap := some 800 } })],
    (t.position 5).move = some (closing .intermediate 5400 24600) ∧ (t.link.rxGap, t.msPhase) = (some 200, 0) ∧
    (t.drive.closing, t.drive.opening) = ([4], [9]) := by decide +kernel
theorem test_clockSet : (ran 0x11 [0x27, 0x5F, 59] State.reset).clock = { minute := 10079, second := 59, isSet := true } ∧
    reply (ran 0x11 [0x27, 0x60, 0] State.reset) = [5] := by decide +kernel

/-! ### Read requests -/

theorem test_readOutlet : (reply (ran 0x12 [0x80, 5] (plant .serving))).take 6 = [0, 5, 4, 0, 1, 0x90] := by decide +kernel
theorem test_readPool : (reply (ran 0x13 [1] State.reset)).take 11 = [0, 1, 0, 10, 0, 1, 44, 20, 0xFF, 0xFF, 85] := by decide +kernel
theorem test_readProg : (reply (ran 0x14 [2] (claimed .holding))).take 4 = [0, 2, 0, 63] := by decide +kernel
theorem test_readSensors : reply (ran 0x15 [50, 1] State.reset) = [0, 0, 0, 0, 0, 0, 0, 0] ∧
    reply (ran 0x15 [50, 2] State.reset) = [5] := by decide +kernel
theorem test_readStatus : (reply (ran 0x17 [] { State.reset with link := { State.reset.link with notices := 1 } })).take 5 = [0, 1, 0, 0, 0] := by decide +kernel

/-! ## The hypotheses of the statements can be met -/

/-- A request statement's hypotheses on its frame, and `P` of that state and frame: the frame waits alone on `s`. -/
def Asking (k : Byte) (payload : List Nat) (s : State) (P : State → Frame → Prop) : Prop :=
  (asked (frame k.toNat payload) s).takes (frame k.toNat payload) [] ∧ (frame k.toNat payload).kind = k ∧
    P (asked (frame k.toNat payload) s) (frame k.toNat payload)

theorem forSome {α : Type} {x : Option α} {a : α} {P : α → Prop} (e : x = some a) (h : P a) : ∀ m, x = some m → P m := by
  rintro m hm
  rw [e] at hm
  cases hm
  exact h

theorem forNone {α : Type} {x : Option α} {P : α → Prop} (e : x = none) : ∀ m, x = some m → P m := by
  rintro m hm
  rw [e] at hm
  cases hm

/-- Some link state on reset. -/
def onLink (f : Link → Link) : State :=
  { State.reset with link := f State.reset.link }

/-! ### Steps, resets, link -/

theorem witness_StepRunsFrontCommand : ({ State.reset with pending := [.clockTick, .supply] } : State).pending =
    .clockTick :: [.supply] := rfl

theorem witness_IdleStepIsOneMillisecond :
    (State.reset.pending = [] ∧ State.reset.rstLow = false ∧ State.reset.msPhase < 999) ∧
    ({ State.reset with msPhase := 998 } : State).msPhase < 999 ∧ 999 ≤ ({ State.reset with msPhase := 999 } : State).msPhase ∧
    ({ State.reset with rstLow := true } : State).rstLow = true := by decide +kernel

theorem witness_LowRstnHoldsOutputsAndState : ({ State.reset with rstLow := true } : State).rstLow = true ∧
    ∀ spd1 spd0 : Bool, Instr.clockTick ≠ .hardwareReset spd1 spd0 := by decide +kernel

theorem witness_ResetFollowsItsReply : Asking 0x1A [] (plant .serving) (fun _ f => f.payload = []) ∧
    (onLink fun l => { l with tx := [frame 0x9A [0]], resetDue := true }).rstLow = false ∧
    (onLink fun l => { l with tx := [frame 0x9A [0]], resetDue := true }).link.tx = frame 0x9A [0] :: [] ∧
    (onLink fun l => { l with tx := [frame 0x9A [0]], resetDue := true }).link.resetDue = true := by
  unfold Asking State.takes; decide +kernel

theorem witness_SentFrameLeavesTransmitOrder : (State.reset.rstLow = false ∧ State.reset.link.tx = []) ∧
    (onLink fun l => { l with tx := [frame 0x97 [0], frame 0xE0 [1, 0, 1]] }).rstLow = false ∧
    (onLink fun l => { l with tx := [frame 0x97 [0], frame 0xE0 [1, 0, 1]] }).link.tx = frame 0x97 [0] :: [frame 0xE0 [1, 0, 1]] ∧
    (onLink fun l => { l with tx := [frame 0x97 [0], frame 0xE0 [1, 0, 1]] }).link.resetDue = false := by decide +kernel

/-- Frames of the least and the greatest LEN; a queue at 3 and at 4, a transmit order at 5 and at 6. -/
theorem witness_ArrivingFrameIsHandedOn :
    (frame 0x17 []).wellFormed = true ∧ (frame 0x05 (List.replicate 118 7)).wellFormed = true ∧
    ∀ n ∈ [3, 4], ∀ m ∈ [5, 6], ∀ s ∈ [onLink fun l => { l with
        queue := List.replicate n (frame 0x17 []), tx := List.replicate m (frame 0x97 [0]) }],
      s.rstLow = false ∧ s.link.rxBuf = none ∧ s.link.queue.length = n ∧ s.link.tx.length = m := by decide +kernel

/-- A LEN of 1 and of 121; a body of 2 bytes with a CRC that is not its own. -/
theorem witness_BadFrameIsDiscarded : (State.reset.rstLow = false ∧ State.reset.link.rxBuf = none) ∧
    ((1 : Byte).toNat < 2 ∧ 120 < (121 : Byte).toNat ∧ (0x3C : Byte) ∉ ([5, 6] : List Byte)) ∧
    ∀ len ∈ [(2 : Byte)], ∀ body ∈ [([0x17, 0x01] : List Byte)], ∀ crc ∈ [([0, 0] : List Byte)],
      2 ≤ len.toNat ∧ len.toNat ≤ 120 ∧ body.length = len.toNat ∧ crc.length = 2 ∧
      crc ≠ be16 (crc16 (len :: body)).toNat ∧ (0x3C : Byte) ∉ len :: (body ++ crc) := by decide +kernel

theorem witness_ArrivalMayBeSplit : State.reset.rstLow = false ∧ exec (.frameArrival [0x3C, 2]) State.reset =
    .next (onLink fun l => { l with rxBuf := some [2], rxGap := some 21 }) := ⟨rfl, by rfl⟩

/-- A frame whose bytes lie behind one byte of another, and a receiver whose bytes hold no START. -/
theorem witness_GapExpiryExaminesAgain : (State.reset.rstLow = false ∧ State.reset.link.rxBuf = none) ∧
    (∀ s ∈ [onLink fun l => { l with rxBuf := some [0x05, 0x17], rxGap := some 0 }],
      s.rstLow = false ∧ s.link.rxBuf = some [0x05, 0x17] ∧ s.link.rxGap = some 0 ∧ (0x3C : Byte) ∉ ([0x05, 0x17] : List Byte)) ∧
    ∀ s ∈ [onLink fun l => { l with rxBuf := some ([0x05] ++ frameBytes (frame 0x17 [])), rxGap := some 0 }],
      s.rstLow = false ∧ s.link.rxBuf = some ([0x05] ++ frameBytes (frame 0x17 [])) ∧ s.link.rxGap = some 0 ∧
      (0x3C : Byte) ∉ ([0x05] : List Byte) ∧ (frame 0x17 []).wellFormed = true ∧ s.link.queue.length < 4 := by decide +kernel

theorem witness_ExecutionWaitsAndChecksFrame :
    (onLink fun l => { l with tx := [frame 0x97 [0]], queue := [frame 0x17 []] }).link.tx ≠ [] ∧
    State.reset.link.queue = [] ∧
    ((asked (frame 0x17 []) State.reset).link.queue.head? = some (frame 0x17 []) ∧
      requestRow (frame 0x17 []) ≠ requestRow (frame 0x0B [0])) ∧
    Asking 0x00 [] State.reset (fun _ f => f.kind = 0) ∧ Asking 0x1B [] State.reset (fun _ f => 0x1A < f.kind.toNat) ∧
    Asking 0x01 [1] State.reset (fun _ f => 1 ≤ f.kind.toNat ∧ fits (requestRow f) f.payload = false) ∧
    Asking 0x1A [1] State.reset (fun _ f => f.kind.toNat ≤ 0x1A ∧ fits (requestRow f) f.payload = false) := by
  unfold Asking State.takes; decide +kernel

theorem witness_RefusalChangesNothingElse : Asking 0x02 [0x80, 5] (plant .idle) (fun _ _ => True) := by
  unfold Asking State.takes; decide +kernel

theorem witness_RaiseRule : (onLink fun l => { l with notices := 1 }).isPending .curtail = true ∧
    State.reset.isPending .stale = false ∧ State.reset.isMasked .stale = false ∧
    (onLink fun l => { l with mask := 0x80 }).isPending .stale = false ∧
    (onLink fun l => { l with mask := 0x80 }).isMasked .stale = true := by decide +kernel

theorem witness_NoticeRequestsAckAndMask :
    Asking 0x18 [0x81] (onLink fun l => { l with notices := 0x81 }) (fun _ f => f.payload = [0x81]) ∧
    Asking 0x19 [0xFF] State.reset (fun _ f => f.payload = [0xFF]) := by
  unfold Asking State.takes; decide +kernel

/-! ### Branch addressing -/

theorem hotel_rangesApart (s : State) (h : s.xlat = hotel) : s.rangesApart := by
  refine ⟨by rw [h]; decide +kernel, ?_⟩
  rw [h]
  have base : ∀ i : Fin 4, ∀ a : Nat, (hotel.ranges.get i).hits a = true →
      (i = 0 ∧ 256 ≤ a ∧ a < 272) ∨ (i = 1 ∧ 512 ≤ a ∧ a < 576) ∨ (i = 2 ∧ 1024 ≤ a ∧ a < 1088) := by
    intro i a
    fin_cases i <;> simp [hotel, resetTranslator, BranchRange.hits, Table.get_set]
  intro i j hij _ _ a hh
  have h1 := base i a hh.1
  have h2 := base j a hh.2
  omega

theorem witness_TranslationFollowsRangesAndMap : ({ State.reset with xlat := hotel } : State).rangesApart ∧
    (32768 + 47 < 65536 ∧ 32768 + 48 < 65536 ∧ 0xFFFF < 65536) ∧
    (∀ i : Fin 4, (hotel.ranges.get i).hits 32767 = false) ∧
    (∀ a ∈ [256, 271], (hotel.ranges.get 0).base ≤ a ∧ a < (hotel.ranges.get 0).base + (hotel.ranges.get 0).size ∧
      (hotel.ranges.get 0).enable = true ∧ (hotel.ranges.get 0).mapped = false) ∧
    (48 ≤ (hotel.ranges.get 2).chanBase + (1072 - (hotel.ranges.get 2).base) ∧ (hotel.ranges.get 2).enable = true ∧
      (hotel.ranges.get 2).mapped = false) ∧
    (∀ a ∈ [512, 575], (hotel.ranges.get 1).base ≤ a ∧ a < (hotel.ranges.get 1).base + (hotel.ranges.get 1).size ∧
      (hotel.ranges.get 1).mapped = true ∧ ((⟨127, by decide⟩ : Fin 128).val = 64 + (575 - 512))) :=
  ⟨hotel_rangesApart _ rfl, by decide +kernel⟩

/-- Each bad field, a record at the top of the addresses, a disabled record, and an overlap with range 1. -/
theorem witness_RangeSetStoresOrRefuses :
    (∀ p ∈ [[4, 1, 0, 0, 0, 1, 0, 0, 0], [0, 2, 0, 0, 0, 1, 0, 0, 0], [0, 1, 0, 0, 0, 1, 2, 0, 0], [0, 1, 0x80, 0, 0, 1, 0, 0, 0],
        [0, 1, 0, 1, 0, 2, 0, 0, 0], [0, 1, 0, 0, 0, 1, 0, 48, 0], [0, 1, 0, 0, 0, 1, 1, 0, 128]],
      Asking 0x0C p { State.reset with xlat := hotel } (fun _ f => f.payload.length = 9 ∧
        (4 ≤ readByte f.payload 0 ∨ 2 ≤ readByte f.payload 1 ∨ 2 ≤ readByte f.payload 6 ∨ 32768 ≤ readWord f.payload 2 ∨
          readWord f.payload 2 % readWord f.payload 4 ≠ 0 ∨ 48 ≤ readByte f.payload 7 ∨ 128 ≤ readByte f.payload 8))) ∧
    Asking 0x0C [3, 1, 0x7F, 0, 1, 0, 1, 47, 127] { State.reset with xlat := hotel } (fun s f => f.payload.length = 9 ∧
      readByte f.payload 0 = (3 : Fin 4).val ∧ readByte f.payload 1 = true.toNat ∧ readByte f.payload 6 = true.toNat ∧ 8 ≤ 8 ∧
      readWord f.payload 4 = 2 ^ 8 ∧ readWord f.payload 2 = 0x7F00 ∧ 0x7F00 < 32768 ∧ 0x7F00 % 2 ^ 8 = 0 ∧
      readByte f.payload 7 = 47 ∧ readByte f.payload 8 = 127 ∧ ∀ j : Fin 4, 0 < (s.xlat.ranges.get j).size) ∧
    (∀ j : Fin 4, j ≠ 3 → (hotel.ranges.get j).enable = true → ∀ a : Nat, 0x7F00 ≤ a → a < 0x7F00 + 2 ^ 8 →
      (hotel.ranges.get j).hits a = false) ∧
    Asking 0x0C [3, 1, 2, 0, 1, 0, 0, 0, 0] { State.reset with xlat := hotel } (fun s f => f.payload.length = 9 ∧
      readWord f.payload 4 = 2 ^ 8 ∧ readWord f.payload 2 = 512 ∧ (1 : Fin 4) ≠ 3 ∧ (s.xlat.ranges.get 1).hits 512 = true) ∧
    ∀ l : Fin 4, l < 1 → ∀ b : Nat, 512 ≤ b → (hotel.ranges.get l).hits b = false := by
  refine ⟨by unfold Asking State.takes; decide +kernel, by unfold Asking State.takes; decide +kernel, ?_,
    by unfold Asking State.takes; decide +kernel, ?_⟩
  · intro j _ _ a h1 h2
    fin_cases j <;> simp [hotel, resetTranslator, BranchRange.hits, Table.get_set] <;> omega
  · intro l hl b hb
    have : l = 0 := by omega
    subst this
    simp [hotel, resetTranslator, BranchRange.hits, Table.get_set]
    omega

theorem witness_RangeSetStoresOrRefuses_size : Asking 0x0C [0, 1, 0, 0, 0, 3, 0, 0, 0] State.reset (fun _ f =>
    f.payload.length = 9 ∧ ∀ k : Nat, k ≤ 8 → readWord f.payload 4 ≠ 2 ^ k) := by
  unfold Asking State.takes; decide +kernel

/-- A START of 128, a list one entry too long, a VALID of 2, a CHANNEL of 48, and a list that ends at index 127. -/
theorem witness_MapSetWritesOrRefuses :
    Asking 0x0D [128] State.reset (fun _ f => f.payload = byte 128 :: ([] : List (Byte × Byte)).flatMap (fun e => [e.1, e.2])) ∧
    Asking 0x0D [127, 1, 5, 1, 6] State.reset (fun _ f => f.payload = byte 127 :: ([(1, 5), (1, 6)] : List (Byte × Byte)).flatMap
      (fun e => [e.1, e.2]) ∧ 128 < (byte 127).toNat + 2) ∧
    Asking 0x0D [126, 1, 5, 2, 6] State.reset (fun _ f => f.payload = byte 126 :: ([(1, 5), (2, 6)] : List (Byte × Byte)).flatMap
      (fun e => [e.1, e.2]) ∧ ([(1, 5), (2, 6)] : List (Byte × Byte))[1]? = some (2, 6) ∧
      ∀ d ∈ ([(1, 5), (2, 6)] : List (Byte × Byte)).take 1, d.1.toNat < 2) ∧
    Asking 0x0D [126, 1, 47, 1, 48] State.reset (fun _ f => f.payload = byte 126 :: ([(1, 47), (1, 48)] : List (Byte × Byte)).flatMap
      (fun e => [e.1, e.2]) ∧ ([(1, 47), (1, 48)] : List (Byte × Byte))[1]? = some (1, 48) ∧
      ∀ d ∈ ([(1, 47), (1, 48)] : List (Byte × Byte)), d.1.toNat < 2 ∧ ((1 : Byte) = 1 ∧ 48 ≤ (48 : Byte).toNat)) ∧
    Asking 0x0D [126, 1, 47, 0, 99] State.reset (fun _ f => f.payload = byte 126 :: ([(1, 47), (0, 99)] : List (Byte × Byte)).flatMap
      (fun e => [e.1, e.2]) ∧ (byte 126).toNat + 2 ≤ 128 ∧
      ∀ e ∈ ([(1, 47), (0, 99)] : List (Byte × Byte)), e.1 = 0 ∨ (e.1 = 1 ∧ e.2.toNat < 48)) := by
  unfold Asking State.takes; refine ⟨?_, ?_, ?_, ?_, ?_⟩ <;> and_intros <;> first | (simp; done) | decide +kernel

/-! ### Outlet Table -/

theorem witness_OutletClampsGiveRanges : ∀ x ∈ [(outlet .idle).fixed], ∀ y ∈ [profile],
    x.ratedKw ≤ 2000 ∧ x.fallbackKw ≤ x.ratedKw ∧ x.warmMaxS ≤ 1800 ∧ -200 ≤ x.warmTemp ∧ x.warmTemp ≤ 2000 ∧
    y.maxKw ≤ 400 ∧ y.floorKw ≤ y.maxKw ∧ 1 ≤ y.weight ∧ y.weight ≤ 15 ∧ y.warmKw ≤ 400 ∧ 1 ≤ y.tolerance := by decide +kernel

/-- OUTLET-SET of channel 5 with this POOL, RATED_KW, STROKE_S, AUTO_RECOVER and CLASS. -/
def setBytes (pool rated stroke auto cls : Nat) : List Nat :=
  [0x80, 5, pool, rated / 256, rated % 256, stroke / 256, stroke % 256, 0, 50, auto, 0, 10, 0, 10, cls, 0, 0, 1, 0x90, 1, 0, 0, 3]

/-- The hypotheses that OUTLET-SET's two statements of what it writes have in common. -/
abbrev SetFields (s : State) (f : Frame) (pool : Pool) (ar : Bool) (cls : ServiceClass) : Prop :=
  f.payload.length = 23 ∧ translate s.xlat (readWord f.payload 0) = .ok 5 ∧ poolOf (readByte f.payload 2) = some pool ∧
  flagOf (readByte f.payload 9) = some ar ∧ classOf (readByte f.payload 14) = some cls ∧ 30 ≤ readWord f.payload 5 ∧
  readWord f.payload 5 ≤ 600 ∧ readWord f.payload 3 ≠ 0

/-- A bank in the part's hands and one handed off; a stroke of 30 and of 600; RATED_KW 1 and above the limit. -/
theorem witness_OutletSetCreatesRecord :
    Asking 0x01 (setBytes 0 1 30 0 0) State.reset (fun s f => SetFields s f .steam false .sanitary ∧ s.outlet 5 = none ∧
      s.handedOff 5 = false) ∧
    Asking 0x01 (setBytes 2 2001 600 1 3) { State.reset with handoff := { State.reset.handoff with handedOff := Table.fill 6 true } } (fun s f =>
      SetFields s f (.hw .hw2) true .deferrable ∧ s.outlet 5 = none ∧ s.handedOff 5 = true) := by
  unfold Asking State.takes
  refine ⟨by decide +kernel, ?_⟩
  decide +kernel

/-- Every state that refuses, and the two conflicts, and a replacement in each state that takes one. -/
theorem witness_OutletSetReplacesRecord :
    (∀ st ∈ [OutletState.homing, .warming, .serving, .held], Asking 0x01 (setBytes 0 400 90 0 2) (plant st) (fun s f =>
      SetFields s f .steam false .guest ∧ s.outlet 5 = some (outlet st))) ∧
    Asking 0x01 (setBytes 1 400 90 0 2) (State.reset.setOutlet 5 (some { outlet .idle with feederOf := some .hw1 })) (fun s f =>
      SetFields s f (.hw .hw1) false .guest ∧ s.outlet 5 = some { outlet .idle with feederOf := some .hw1 }) ∧
    Asking 0x01 (setBytes 0 400 90 0 2) ((plant .idle).setClaim 5 { holder := some { slot := 0, step := 1, kw := 1 }, waiters := [] })
      (fun s f => SetFields s f .steam false .guest ∧ s.outlet 5 = some (outlet .idle) ∧ (s.claim 5).holder ≠ none) ∧
    ∀ st ∈ [OutletState.idle, .locked, .faulted], Asking 0x01 (setBytes 0 400 90 0 2) (plant st) (fun s f =>
      SetFields s f .steam false .guest ∧ s.outlet 5 = some (outlet st) ∧ (outlet st).feederOf = none ∧
      (s.claim 5).holder = none) := by
  unfold Asking State.takes; refine ⟨?_, ?_, ?_, ?_⟩ <;> decide +kernel

theorem witness_OutletSetRefusesBadFields :
    Asking 0x01 (0x80 :: 48 :: (setBytes 0 400 90 0 2).drop 2) State.reset (fun s f => f.payload.length = 23 ∧
      translate s.xlat (readWord f.payload 0) = .error .noOutlet) ∧
    ∀ p ∈ [setBytes 3 400 90 0 2, setBytes 0 400 90 2 2, setBytes 0 400 90 0 4, setBytes 0 400 29 0 2, setBytes 0 400 601 0 2,
        setBytes 0 0 90 0 2],
      Asking 0x01 p State.reset (fun s f => f.payload.length = 23 ∧ translate s.xlat (readWord f.payload 0) = .ok 5 ∧
        (3 ≤ readByte f.payload 2 ∨ 2 ≤ readByte f.payload 9 ∨ 4 ≤ readByte f.payload 14 ∨ readWord f.payload 5 < 30 ∨
          600 < readWord f.payload 5 ∨ readWord f.payload 3 = 0)) := by
  unfold Asking State.takes; refine ⟨?_, ?_⟩ <;> decide +kernel

/-- A request of this kind and channel 5, or of channel 48, which no outlet has. -/
def AtFive (k : Byte) (more : List Nat) (s : State) (P : State → Prop) : Prop :=
  Asking k ([0x80, 5] ++ more) s fun t f => f.payload.length = 2 + more.length ∧
    translate t.xlat (readWord f.payload 0) = .ok 5 ∧ P t

def AtNone (k : Byte) (more : List Nat) (s : State) : Prop :=
  Asking k ([0x80, 48] ++ more) s fun t f => f.payload.length = 2 + more.length ∧
    translate t.xlat (readWord f.payload 0) = .error .noOutlet

theorem witness_OutletDropRemovesRecord :
    AtNone 0x02 [] (plant .idle) ∧ AtFive 0x02 [] State.reset (fun s => s.outlet 5 = none) ∧
    (∀ st ∈ [OutletState.homing, .warming, .serving, .held], AtFive 0x02 [] (plant st) (fun s => s.outlet 5 = some (outlet st))) ∧
    AtFive 0x02 [] (State.reset.setOutlet 5 (some { outlet .idle with feederOf := some .hw1 })) (fun s =>
      s.outlet 5 = some { outlet .idle with feederOf := some .hw1 }) ∧
    ∀ st ∈ [OutletState.idle, .locked, .faulted], AtFive 0x02 [] (plant st) (fun s => s.outlet 5 = some (outlet st) ∧
      (outlet st).feederOf = none ∧ (s.claim 5).holder = none ∧ (s.position 5).move = none) := by
  unfold AtFive AtNone Asking State.takes; refine ⟨?_, ?_, ?_⟩ <;> decide +kernel

/-- PROFILE-SET's fields behind the address, but for the set and the class. -/
def profileTail : List Nat :=
  [0, 10, 0, 20, 3, 0, 0, 7]

theorem witness_ProfileSetWritesInactiveSet :
    AtNone 0x03 ([0, 0] ++ profileTail) (plant .idle) ∧
    (∀ x ∈ [[2, 0], [0, 4]], Asking 0x03 ([0x80, 5] ++ x ++ profileTail) (plant .idle) (fun s f => f.payload.length = 12 ∧
      translate s.xlat (readWord f.payload 0) = .ok 5 ∧ (2 ≤ readByte f.payload 2 ∨ 4 ≤ readByte f.payload 3))) ∧
    AtFive 0x03 ([1, 3] ++ profileTail) State.reset (fun s => s.outlet 5 = none) ∧
    (bankOfCode 0 = some .a ∧ bankOfCode 1 = some .b ∧ classOf 3 = some .deferrable) ∧
    AtFive 0x03 ([0, 3] ++ profileTail) (plant .idle) (fun s => s.outlet 5 = some (outlet .idle) ∧
      ProfileBank.a = (s.pool .steam).activeBank) ∧
    AtFive 0x03 ([1, 3] ++ profileTail) ((plant .idle).setPool .steam { State.reset.pools.steam with swapPending := true })
      (fun s => s.outlet 5 = some (outlet .idle) ∧ ProfileBank.b ≠ (s.pool .steam).activeBank ∧
        (s.pool .steam).swapPending = true) ∧
    AtFive 0x03 ([1, 3] ++ profileTail) (plant .idle) (fun s => s.outlet 5 = some (outlet .idle) ∧
      ProfileBank.b ≠ (s.pool .steam).activeBank ∧ (s.pool .steam).swapPending = false) := by
  unfold AtFive AtNone Asking State.takes; refine ⟨?_, ?_, ?_, ?_⟩ <;> decide +kernel

/-- The outlet with BAR_ALL set. -/
def lockedOutlet (st : OutletState) : Outlet :=
  { outlet st with bars := { host := false, prog := false, all := true } }

/-- BAR_ALL newly set on each eligible state; newly cleared on LOCKED, without and with BAR_PROG newly set; left as it was. -/
theorem witness_BarSetAppliesActions :
    AtNone 0x04 [0, 0, 1] (plant .idle) ∧ AtFive 0x04 [0, 0, 1] State.reset (fun s => s.outlet 5 = none) ∧
    (∀ x ∈ [[3, 0, 0], [0, 3, 0], [0, 0, 3]], Asking 0x04 ([0x80, 5] ++ x) (plant .idle) (fun s f => f.payload.length = 5 ∧
      translate s.xlat (readWord f.payload 0) = .ok 5 ∧
      (3 ≤ readByte f.payload 2 ∨ 3 ≤ readByte f.payload 3 ∨ 3 ≤ readByte f.payload 4))) ∧
    (∀ st ∈ [OutletState.idle, .warming, .serving], AtFive 0x04 [0, 0, 1] (plant st) (fun s =>
      s.outlet 5 = some (outlet st) ∧ (outlet st).bars.all = false ∧ (outlet st).state.eligible = true)) ∧
    (∀ x ∈ [[0, 0, 2], [0, 1, 2]], AtFive 0x04 x (State.reset.setOutlet 5 (some (lockedOutlet .locked))) (fun s =>
      s.outlet 5 = some (lockedOutlet .locked) ∧ (lockedOutlet .locked).bars.all = true ∧
      (lockedOutlet .locked).bars.prog = false)) ∧
    AtFive 0x04 [2, 1, 0] (plant .faulted) (fun s => s.outlet 5 = some (outlet .faulted)) ∧
    AtFive 0x04 [1, 2, 1] (plant .faulted) (fun s => s.outlet 5 = some (outlet .faulted) ∧ (outlet .faulted).state.eligible = false) ∧
    AtFive 0x04 [0, 0, 2] (State.reset.setOutlet 5 (some (lockedOutlet .held))) (fun s =>
      s.outlet 5 = some (lockedOutlet .held) ∧ (lockedOutlet .held).state ≠ .locked) := by
  unfold AtFive AtNone Asking State.takes; refine ⟨?_, ?_, ?_, ?_, ?_⟩ <;> decide +kernel

theorem witness_BarFailsHoldingStep : ((claimed .reaching).claim 5).holder = some { slot := 0, step := 1, kw := 400 } ∧
    ((claimed .reaching).claim 5).waiters = [] ∧ ((claimed .reaching).slot 0).currentStep = some step5 ∧ step5.channel = 5 ∧
    ((claimed .reaching).slot 0).continueOnFault = false := by decide +kernel

theorem witness_RehomeAndFaultClearEnterHoming :
    AtNone 0x06 [] (plant .idle) ∧ AtNone 0x07 [] (plant .idle) ∧
    AtFive 0x06 [] (plant .held) (fun s => s.isEligible 5 = false) ∧
    (∀ st ∈ [OutletState.idle, .warming, .serving], AtFive 0x06 [] (plant st) (fun s => s.outlet 5 = some (outlet st) ∧
      (outlet st).state.eligible = true)) ∧
    AtFive 0x07 [] State.reset (fun s => s.outlet 5 = none) ∧
    AtFive 0x07 [] (plant .locked) (fun s => s.outlet 5 = some (outlet .locked) ∧ (outlet .locked).state ≠ .faulted) ∧
    AtFive 0x07 [] { plant .faulted with handoff := { State.reset.handoff with handedOff := Table.fill 6 true } }
      (fun s => s.handedOff 5 = true) ∧
    AtFive 0x07 [] (plant .faulted) (fun s => s.outlet 5 = some (outlet .faulted) ∧ s.handedOff 5 = false) := by
  unfold AtFive AtNone Asking State.takes; refine ⟨?_, ?_, ?_, ?_, ?_, ?_⟩ <;> decide +kernel

/-! ### Demand Intake and timers -/

/-- A list of 1 and of 16 items; an item that does not translate, of an absent outlet, of a feeder, under each bar, at RATED_KW
and one above. -/
theorem witness_DemandItemsActInOrder :
    Asking 0x05 [0x80, 48, 0, 1] (plant .idle) (fun s f => f.payload.length = 4 * 1 ∧
      translate s.xlat (readWord f.payload (4 * 0)) = .error .noOutlet) ∧
    Asking 0x05 ((List.replicate 16 [0x80, 5, 1, 0x90]).flatten) (plant .idle) (fun s f => f.payload.length = 4 * 16 ∧
      translate s.xlat (readWord f.payload (4 * 15)) = .ok 5 ∧ s.outlet 5 = some (outlet .idle) ∧
      (outlet .idle).feederOf = none ∧ (outlet .idle).bars.host = false ∧ (outlet .idle).bars.all = false) ∧
    AtFive 0x05 [1, 0x91] State.reset (fun s => s.outlet 5 = none) ∧
    AtFive 0x05 [1, 0x91] (State.reset.setOutlet 5 (some { outlet .idle with feederOf := some .hw1 })) (fun s =>
      s.outlet 5 = some { outlet .idle with feederOf := some .hw1 }) ∧
    AtFive 0x05 [1, 0x91] (State.reset.setOutlet 5 (some (lockedOutlet .locked))) (fun s =>
      s.outlet 5 = some (lockedOutlet .locked) ∧ (lockedOutlet .locked).bars.all = true) := by
  unfold AtFive Asking State.takes; refine ⟨?_, ?_, ?_, ?_, ?_⟩ <;> decide +kernel

theorem witness_RecordTimersExpire :
    ((plant .idle).setDemand 5 (.current 70 0)).demand 5 = .current 70 0 ∧
    (∀ kw : Nat, State.reset.demand 5 ≠ .current kw 0) ∧
    (State.reset.setSteamPart { State.reset.pools.steamPart with capTimer := some 0 }).pools.steamPart.capTimer = some 0 ∧
    State.reset.pools.steamPart.capTimer ≠ some 0 ∧
    (State.reset.setOutlet 5 (some { outlet .warming with warmTimer := some 0 })).outlet 5 =
      some { outlet .warming with warmTimer := some 0 } ∧
    ∀ o : Outlet, (plant .serving).outlet 5 = some o → o.state ≠ .warming ∨ o.warmTimer ≠ some 0 := by
  refine ⟨by decide +kernel, ?_, by decide +kernel, by decide +kernel, by decide +kernel, ?_⟩
  · intro kw h
    have e : State.reset.demand 5 = .absent := by decide +kernel
    rw [e] at h
    cases h
  · exact forSome (a := outlet .serving) (by decide +kernel) (by decide)

/-! ### Supply Pools -/

theorem witness_SupplyAndSwapWriteTheirFields :
    (∀ p ∈ [[0x1F, 0x40], [0x1F, 0x41]], Asking 0x0A p State.reset (fun _ f => f.payload.length = 2)) ∧
    Asking 0x09 [3] State.reset (fun _ f => f.payload.length = 1 ∧ 3 ≤ readByte f.payload 0) ∧
    Asking 0x09 [2] State.reset (fun s f => f.payload.length = 1 ∧ poolOf (readByte f.payload 0) = some (.hw .hw2) ∧
      (s.pool (.hw .hw2)).swapPending = false) ∧
    Asking 0x09 [0] (State.reset.setPool .steam { State.reset.pools.steam with swapPending := true }) (fun s f =>
      f.payload.length = 1 ∧ poolOf (readByte f.payload 0) = some .steam ∧ (s.pool .steam).swapPending = true) := by
  unfold Asking State.takes; decide +kernel

/-- POOL-SET for STEAM with this ENABLE, P_LOW and P_TRIP (each below 256). -/
def steamBytes (enable low trip : Nat) : List Nat :=
  [0, enable, 10, 0, 1, 44, 20, 0, 120, 50, 0, low, 0, trip, 1, 244]

/-- An unknown pool; P_TRIP at P_LOW and one below it; each change of ENABLE. -/
theorem witness_PoolSetStoresSteamSettings :
    Asking 0x08 (3 :: (steamBytes 0 200 100).drop 1) State.reset (fun _ f => f.payload.length = 16 ∧ 3 ≤ readByte f.payload 0) ∧
    Asking 0x08 (steamBytes 2 200 100) State.reset (fun _ f => f.payload.length = 16 ∧ readByte f.payload 0 = 0 ∧
      2 ≤ readByte f.payload 1) ∧
    Asking 0x08 (steamBytes 0 200 200) State.reset (fun _ f => f.payload.length = 16 ∧ readByte f.payload 0 = 0 ∧
      readByte f.payload 1 = false.toNat ∧ min (readWord f.payload 10) 1600 ≤ min (readWord f.payload 12) 1600) ∧
    Asking 0x08 (steamBytes 0 200 199) State.reset (fun s f => f.payload.length = 16 ∧ readByte f.payload 0 = 0 ∧
      readByte f.payload 1 = false.toNat ∧ min (readWord f.payload 12) 1600 < min (readWord f.payload 10) 1600 ∧
      s.pools.steam.settings.enable = false) ∧
    Asking 0x08 (steamBytes 1 200 199) State.reset (fun s f => readByte f.payload 1 = true.toNat ∧
      s.pools.steam.settings.enable = false) ∧
    Asking 0x08 (steamBytes 0 200 199) steamOn (fun s f => readByte f.payload 1 = false.toNat ∧
      s.pools.steam.settings.enable = true) := by
  unfold Asking State.takes; refine ⟨?_, ?_, ?_, ?_, ?_, ?_⟩ <;> decide +kernel

/-- POOL-SET for an HW pool with this ENABLE and FEEDER. -/
def hwBytes (pool enable hi lo : Nat) : List Nat :=
  [pool, enable, 10, 0, 0, 60, 20, hi, lo, 85, 0, 0, 2, 0x26]

/-- The outlet of channel 5 is the feeder of HW1. -/
def feeding (st : OutletState) : State :=
  (State.reset.setHwPart .hw1 { resetHwPart with feeder := some 5 }).setOutlet 5 (some { outlet st with feederOf := some .hw1 })

/-- Each refusal of FEEDER, then a feeder designated, kept, replaced by none, and each change of ENABLE. -/
theorem witness_PoolSetDesignatesFeeder :
    (∀ p ∈ [hwBytes 1 0 0x80 48], Asking 0x08 p State.reset (fun s f => f.payload.length = 14 ∧
      poolOf (readByte f.payload 0) = some (.hw .hw1) ∧ readByte f.payload 1 = false.toNat ∧ HwPool.hw2 ≠ .hw1 ∧
      readWord f.payload 7 ≠ 0xFFFF ∧ translate s.xlat (readWord f.payload 7) = .error .noOutlet)) ∧
    Asking 0x08 (hwBytes 1 0 0x80 6) State.reset (fun s f => translate s.xlat (readWord f.payload 7) = .ok 6 ∧ s.outlet 6 = none) ∧
    Asking 0x08 (hwBytes 2 0 0x80 5) (feeding .idle) (fun s f => poolOf (readByte f.payload 0) = some (.hw .hw2) ∧
      translate s.xlat (readWord f.payload 7) = .ok 5 ∧ (s.hwPart .hw1).feeder = some 5) ∧
    Asking 0x08 (hwBytes 1 0 0x80 5) (claimed .holding) (fun s f => translate s.xlat (readWord f.payload 7) = .ok 5 ∧
      (s.claim 5).holder ≠ none ∧ (s.hwPart .hw1).feeder ≠ some 5) ∧
    Asking 0x08 (hwBytes 1 1 0x80 5) (plant .serving) (fun s f => f.payload.length = 14 ∧
      poolOf (readByte f.payload 0) = some (.hw .hw1) ∧ readByte f.payload 1 = true.toNat ∧
      translate s.xlat (readWord f.payload 7) = .ok 5 ∧ s.outlet 5 = some (outlet .serving) ∧
      (outlet .serving).fixed.pool = .steam ∧ (s.hwPart .hw2).feeder ≠ some 5 ∧ (s.claim 5).holder = none ∧
      (s.hwPart .hw1).feeder ≠ some 5 ∧ (s.pool (.hw .hw1)).settings.enable = false) ∧
    Asking 0x08 (hwBytes 1 0 0x80 5) (feeding .idle) (fun s f => translate s.xlat (readWord f.payload 7) = .ok 5 ∧
      (s.hwPart .hw1).feeder = some 5) ∧
    Asking 0x08 (hwBytes 1 0 0xFF 0xFF) ((feeding .idle).setPool (.hw .hw1) { resetPoolRecord 1000 with
        settings := { enable := true, periodS := 10, reservePct := 0, demandStaleS := 300, deadband := 20 } }) (fun s f =>
      readWord f.payload 7 = 0xFFFF ∧ (s.hwPart .hw1).feeder = some 5 ∧ (s.pool (.hw .hw1)).settings.enable = true ∧
      readByte f.payload 1 = false.toNat) := by
  unfold Asking State.takes; refine ⟨?_, ?_, ?_, ?_, ?_, ?_, ?_⟩ <;> decide +kernel

theorem witness_DisablingClearsGrants : (steamOn.outlet 5).isSome = true ∧ ((disablePool .steam steamOn).outlet 5).isSome = true ∧
    (outlet .idle).fixed.pool = .steam ∧ ((feeding .serving).hwPart .hw1).feeder = some 5 ∧
    ((disablePool (.hw .hw1) (feeding .serving)).outlet 5).isSome = true := by decide +kernel

/-- A warming outlet of the pool, half open, and a homing one of bank 1; with no limit of the first made, and both (R31, R103). -/
theorem witness_DisablingClearsGrants_targets (b : Bool) (s : State) (hs : s = limits b b (driving 500 (some 250) none ((steamOn.setOutlet 5
      (some { outlet .warming with grant := 300, warmTimer := some 60 })).setOutlet 8 (some (outlet .homing))))) :
    ([5] : List Channel).Pairwise (fun x y => x < y) ∧ (∀ c : Channel, c ∈ [5] ↔ c ∈ eligibleOf .steam s) ∧
    8 ∉ s.drive.closing ∧ 8 ∉ s.drive.opening ∧ s.climActive 8 = false ∧
    ((disablePool .steam s).outlet 5).map (fun u => (u.state, u.grant, u.warmTimer)) =
      some (if b = true then .faulted else .idle, 0, none) ∧
    ((disablePool .steam s).outlet 8).map (fun u => u.state) = some .homing := by
  subst hs
  cases b <;> refine ⟨?_, ?_, ?_, ?_, ?_, ?_, ?_⟩ <;> decide +kernel

/-- The declared capacity current and stale; the header faulted, at P_LOW, at P_TRIP and between them; a store at its
temperature; a pool without a feeder, with one that is not eligible, and with one that is. -/
theorem witness_CapacityFollowsInputs :
    State.reset.pools.steamPart.capStale = false ∧
    (State.reset.setSteamPart { State.reset.pools.steamPart with capStale := true }).pools.steamPart.capStale = true ∧
    ((State.reset.setSensor 48 { resetSensor with faulted := true }).sensor 48).faulted = true ∧
    (∀ r ∈ [(700 : Int), 699, 501, 500], ∀ s ∈ [State.reset.setSensor 48 { resetSensor with lastGood := r }],
      (s.sensor 48).faulted = false ∧ (s.sensor 48).lastGood = r ∧ s.pools.steamPart.settings.pTrip <
        s.pools.steamPart.settings.pLow) ∧
    ((State.reset.setSensor 49 { resetSensor with lastGood := 550 }).sensor 49).lastGood = (State.reset.hwPart .hw1).storeTemp ∧
    (State.reset.hwPart .hw2).feeder = none ∧
    (((feeding .held).hwPart .hw1).feeder = some 5 ∧ (feeding .held).isEligible 5 = false) ∧
    ((feeding .serving).hwPart .hw1).feeder = some 5 ∧
    (feeding .serving).outlet 5 = some { outlet .serving with feederOf := some .hw1 } ∧
    (outlet .serving).state.eligible = true := by decide +kernel

/-! ### Rounds -/

theorem witness_RoundsRunOnTimerAndRebalance :
    (steamOn.rstLow = false ∧ (steamOn.pool .steam).roundTimer = some 0 ∧ (State.reset.pool .steam).roundTimer ≠ some 0) ∧
    Asking 0x0B [3] steamOn (fun _ f => f.payload.length = 1 ∧ 3 ≤ readByte f.payload 0) ∧
    Asking 0x0B [2] steamOn (fun s f => f.payload.length = 1 ∧ poolOf (readByte f.payload 0) = some (.hw .hw2) ∧
      (s.pool (.hw .hw2)).settings.enable = false) ∧
    Asking 0x0B [0] steamOn (fun s f => f.payload.length = 1 ∧ poolOf (readByte f.payload 0) = some .steam ∧
      (s.pool .steam).settings.enable = true) := by
  unfold Asking State.takes; refine ⟨?_, ?_, ?_, ?_⟩ <;> decide +kernel

theorem witness_RoundWritesPoolRecord : (Pool.hw .hw1) ≠ .steam ∧ Pool.steam ≠ .hw .hw2 := by decide

/-- The outlets of the sag round of 3.13, a curtailed class above another, and C of 0, of the sum of E, and between. -/
theorem witness_AllocationKeepsThreeLaws : ∀ ps ∈ [[part 2 .sanitary 1 50 50, part 6 .sanitary 1 70 70, part 7 .process 1 9 9]],
    ps.Pairwise (fun a b => a.ch < b.ch) ∧ (∀ p ∈ ps, p.fu ≤ p.e) ∧
    classOrder[0]? = some .sanitary ∧ classOrder[1]? = some .process ∧
    { part 2 .sanitary 1 50 50 with g := 41 } ∈ allocate 100 ps ∧ part 7 .process 1 9 9 ∈ allocate 100 ps := by decide +kernel

theorem witness_AllocationSharesAllOfCapacity : ∀ ps ∈ [[part 3 .sanitary 8 200 100, part 7 .process 8 300 150,
      part 8 .process 4 250 50, part 12 .guest 10 400 100, part 20 .deferrable 15 150 0]],
    ps.Pairwise (fun a b => a.ch < b.ch) ∧ (∀ p ∈ ps, p.fu ≤ p.e) ∧ (∀ p ∈ ps, 1 ≤ p.weight) ∧
    total (fun p => p.e) ps = 1300 := by decide +kernel

theorem witness_GrantsSetStatesAndTargets :
    (([part 5 .guest 1 300 0] : List Part).Pairwise (fun a b => a.ch < b.ch) ∧
      (plant .idle).outlet (part 5 .guest 1 300 0).ch = some (outlet .idle) ∧
      ∀ q ∈ ([part 5 .guest 1 300 0] : List Part), q.ch ≠ 6) ∧
    ((outlet .idle).state = .idle ∧ (outlet .idle).fixed.pool = .steam ∧ (outlet .warming).state = .warming ∧
      (outlet .serving).state = .serving) ∧
    (0 < 400 ∧ 400 ≤ 400 ∧ 0 ≤ 400) ∧ 0 < 85 ∧ 120 ≤ 120 ∧ 120 < 121 := by decide +kernel

/-! ### Curtailment -/

/-- The counter at 0, 1 and 2, a curtailed and a full grant, an E of 0, and a full log. -/
theorem witness_ResultMovesCounterAndFlag :
    (∀ n ∈ [0, 1, 2], ∀ g ∈ [150, 399, 400], ∀ s ∈ [{ (plant .serving).setCurtailment 5 { counter := n, floorCut := false } with
        log := { entries := (List.range 32).map entry, lost := false } }],
      s.outlet (spaRound 400 200 g).channel = some (outlet .serving) ∧ (spaRound 400 200 g).grant ≤ (spaRound 400 200 g).e ∧
      (spaRound 400 200 g).fu ≤ (spaRound 400 200 g).e ∧ s.log.entries.length ≤ 32 ∧ (s.curtailment 5).counter = n) ∧
    (spaRound 0 0 0).grant ≤ (spaRound 0 0 0).e := by decide +kernel

/-- R91, R183: a write that discards makes LOGLOSS's frame ready and then CURTAIL's; with CURTAIL masked, LOGLOSS's alone. -/
theorem test_log_notices : ∀ x ∈ [((0 : Byte), [[2, 0, 2], [3, 0, 1]]), (1, [[2, 1, 2]])], ∀ s ∈ [{ (plant .serving).setCurtailment 5
      { counter := 1, floorCut := false } with log := { entries := (List.range 32).map entry, lost := false } }],
    ((takeResult (spaRound 400 100 100) { s with link := { s.link with mask := x.1 } }).link.tx.map fun f => f.payload) = x.2 := by
  decide +kernel

theorem witness_ReadLogTakesOldestEntries : Asking 0x16 [] { State.reset with
    log := { entries := (List.range 9).map entry, lost := true } } (fun _ f => f.payload = []) := by
  unfold Asking State.takes; decide +kernel

/-! ### Drive Unit -/

/-- A move that has driven 200 positions and has this much time left. -/
def leg (dir : MoveDir) (kind : MoveKind) (timer : Nat) (check : Timer) : Move :=
  { dir, kind, timer, elapsed := 24000, stroke := 120, check }

/-- Channel 5 in that move. -/
def moving (dir : MoveDir) (kind : MoveKind) (timer : Nat) (check : Timer) (o : Outlet) : State :=
  driving 500 (some 250) (some (leg dir kind timer check)) (State.reset.setOutlet 5 (some o))

theorem witness_MotionTimersExpire :
    (State.reset.rstLow = false ∧ (State.reset.position 5).move = none ∧ (State.reset.position 5).pause ≠ some 0) ∧
    (∀ k ∈ [MoveKind.toClosed, .homing, .toOpen, .intermediate], ∀ n ∈ [0, 1], ∀ ck ∈ [none, some 0, some 1],
      ((moving .closing k n ck (outlet .serving)).position 5).move =
        some (leg .closing k n ck) ∧
      ((moving .closing k n ck (outlet .serving)).position 5).target = some 250) ∧
    (∀ a ∈ [false, true], ∀ b ∈ [false, true],
      ((limits a b (moving .opening .intermediate 0 (some 0) (outlet .serving))).olimActive 5,
        (limits a b (moving .opening .intermediate 0 (some 0) (outlet .serving))).climActive 5) = (a, b)) ∧
    ((State.reset.setPosition 5 { resetPosition with pause := some 0 }).position 5).pause = some 0 := by decide +kernel

/-- Each line at each level, with each direction of a move, and without one: in a present and an absent outlet. -/
theorem witness_LimitEventsActOnMoves :
    (∀ a ∈ [false, true], ∀ b ∈ [false, true], ∀ d ∈ [MoveDir.closing, .opening],
      ∀ s ∈ [limits a b (moving d .intermediate 6000 (some 1) (outlet .serving))],
        s.rstLow = false ∧ s.olimActive 5 = a ∧ s.climActive 5 = b ∧
        (s.position 5).move = some (leg d .intermediate 6000 (some 1))) ∧
    ((plant .serving).position 5).move = none ∧ State.reset.outlet 5 = none ∧
    ((plant .serving).outlet 5 = some (outlet .serving) ∧ (outlet .serving).state ≠ .faulted ∧
      (plant .serving).handedOff 5 = false) ∧
    (plant .faulted).outlet 5 = some (outlet .faulted) := by
  refine ⟨?_, ?_, ?_, ?_, ?_⟩ <;> decide +kernel

/-- A fault after 200 positions of a closing move, under no limit, CLIM and OLIM; and at a still channel. -/
theorem witness_FaultStopReportsFault :
    (∀ o ∈ [outlet .serving, { outlet .warming with fixed := { (outlet .idle).fixed with autoRecover := true } }, outlet .homing,
        outlet .locked],
      ∀ x ∈ [(false, false, 300), (false, true, 0), (true, false, 1000)],
      ∀ s ∈ [limits x.1 x.2.1 (moving .closing .intermediate 6000 none o)],
      ∀ q ∈ [({ resetPosition with est := x.2.2, travel := 200 } : Position)],
        (∀ y ∈ s.drive.closing ++ s.drive.opening, y = 5) ∧ s.claim 5 = { holder := none, waiters := [] } ∧ s.outlet 5 = some o ∧
        (s.position 5).move = some (leg .closing .intermediate 6000 none) ∧ 200 = 24000 / 120 ∧
        (s.olimActive 5, s.climActive 5, q.est) = x ∧ (s.position 5).est - 200 = 300 ∧
        q = { resetPosition with est := x.2.2, travel := min 65535 ((s.position 5).travel + 200),
                                 drift := (s.position 5).drift || decide (4000 ≤ 200) }) ∧
    ((plant .locked).position 5).move = none := by
  refine ⟨?_, ?_⟩ <;> decide +kernel

theorem witness_CompletedMoveComesToRest :
    (∀ x ∈ [(250, none), (500, some MoveDir.opening)], ∀ s ∈ [driving 500 (some 500) (some (closing .intermediate 0 30000))
        (plant .serving)],
      ∀ q ∈ [({ resetPosition with est := x.1, known := true, target := some 500, travel := 250 } : Position)],
        s.drive.closing = [] ∧ s.drive.opening = [] ∧ s.outlet 5 = some (outlet .serving) ∧
        (s.position 5).move = some (closing .intermediate 0 30000) ∧ (closing .intermediate 0 30000).kind ≠ .homing ∧
        250 = min 65535 ((s.position 5).travel + 30000 / 120) ∧ s.handedOff 5 = false ∧
        q = { s.position 5 with est := x.1, known := true, move := none, travel := 250,
                                drift := (s.position 5).drift || decide (4000 ≤ 250) }) ∧
    moveNeed 5 ((plant .serving).setPosition 5 { resetPosition with est := 500, known := true, target := some 500 }) = none ∧
    moveNeed 5 ((plant .serving).setPosition 5 { resetPosition with est := 250, known := true, target := some 500 }) =
      some .opening ∧ MoveDir.opening ≠ (closing .intermediate 0 30000).dir ∧
    ∀ s ∈ [limits false true ((plant .homing).setPosition 5 { resetPosition with
        homeReq := true, move := some (closing .homing 1000 54600) })],
      s.drive.closing = [] ∧ s.drive.opening = [] ∧ s.outlet 5 = some (outlet .homing) ∧
      (s.position 5).move = some (closing .homing 1000 54600) ∧ s.climActive 5 = true ∧ (s.position 5).homeReq = true := by
  decide +kernel

/-- A still channel at 500 with DEADBAND 20, on neither limit and on each; targets at and past the edge of the deadband, and at
the ends of the stroke; an open that starts from the known seat, and a close that DRIFT makes a homing. -/
theorem witness_GrantedNeedStartsMove :
    (∀ e ∈ [0, 500, 1000], ∀ x ∈ [(false, false), (false, true), (true, false)], ∀ d ∈ [false, true],
      ∀ s ∈ [limits x.1 x.2 ((plant .serving).setPosition 5 { resetPosition with est := e, known := true, drift := d })],
        (s.drive.closing, s.drive.opening, s.slotFree) = ([], [], true) ∧ s.outlet 5 = some (outlet .serving) ∧
        s.position 5 = { resetPosition with est := e, known := true, drift := d } ∧
        (s.handedOff 5, s.handoff.bho.get (bankOf 5)) = (false, false) ∧ (s.olimActive 5, s.climActive 5) = x ∧
        (s.climActive 5 = false ∨ s.olimActive 5 = false) ∧ e ≤ 1000 ∧ (s.pool (outlet .serving).fixed.pool).settings.deadband = 20) ∧
    (520 ≤ 500 + 20 ∧ 500 ≤ 480 + 20 ∧ 0 < 479 ∧ 479 + 20 < 500 ∧ 521 < 1000 ∧ 500 + 20 < 521) := by decide +kernel

/-! ### Hand-off -/

theorem witness_HandOffTakesAndReturnsBank :
    (∀ b ∈ [false, true], ∀ h ∈ [false, true], ∀ st ∈ [OutletState.idle, .warming, .serving, .homing, .locked, .held, .faulted],
      ∀ s ∈ [{ plant st with handoff := { bho := Table.fill 6 b, handedOff := Table.fill 6 h } }],
        s.rstLow = false ∧ s.handoff.bho.get 0 = b ∧ s.handoff.handedOff.get 0 = h ∧ bankOf 5 = 0 ∧
        s.outlet 5 = some (outlet st) ∧ s.outlet 6 = none) ∧ bankOf 7 = 0 ∧ bankOf 40 = 5 := by decide +kernel

/-- The HELD outlet's channel is still, unqueued and without a homing request, and it homes on release. -/
theorem witness_HandOffTakesAndReturnsBank_draw : ∀ s ∈ [{ plant .held with
      handoff := { bho := Table.fill 6 true, handedOff := Table.fill 6 true } }],
    s.position 5 = resetPosition ∧ (s.drive.closing, s.drive.opening) = ([], []) ∧
    ((went (exec (.bhoRelease 0) s)).outlet 5).map (fun u => u.state) = some .homing := by decide +kernel

/-! ### Duty programs -/

/-- A step of a PROG-LOAD payload, on channel 5. -/
def stepBytes (cls : Nat) : List Nat :=
  [0x80, 5, 1, 244, cls, 2, 0xBC, 30, 10]

/-- No steps and twelve; each refused setting; a bad class behind a good one; an address that does not translate; a full store. -/
theorem witness_FirstPartReplacesProgram :
    (∀ p ∈ [[4, 0, 1, 0xFF, 0xFF, 0, 0, 0], [0, 2, 1, 0xFF, 0xFF, 0, 0, 0]], Asking 0x0E p State.reset (fun s f =>
      f.payload.length = 8 + 9 * 0 ∧ readByte f.payload 1 ≠ 1 ∧ s.stepsStored ≤ 64 ∧
      (4 ≤ readByte f.payload 0 ∨ 2 ≤ readByte f.payload 1))) ∧
    Asking 0x0E [0, 0, 1, 0xFF, 0xFF, 0, 0, 0] (claimed .holding) (fun s f => (0 : SlotId).val = readByte f.payload 0 ∧
      (s.slot 0).state = .running ∧ s.stepsStored ≤ 64) ∧
    (∀ p ∈ [[3, 0, 1, 0x27, 0x60, 0, 0, 0], [3, 0, 1, 0, 0, 0x27, 0x60, 0], [3, 0, 1, 0, 0, 0, 0, 2]],
      Asking 0x0E p State.reset (fun s f => (3 : SlotId).val = readByte f.payload 0 ∧ (s.slot 3).state ≠ .waiting ∧
        (s.slot 3).state ≠ .running ∧ (10080 ≤ readWord f.payload 3 ∧ readWord f.payload 3 ≠ 0xFFFF ∨
          10080 ≤ readWord f.payload 5 ∨ 2 ≤ readByte f.payload 7))) ∧
    Asking 0x0E ([3, 0, 0, 0x27, 0x5F, 0x27, 0x5F, 1] ++ stepBytes 0 ++ stepBytes 4) State.reset (fun s f =>
      f.payload.length = 8 + 9 * 2 ∧ readWord f.payload 3 < 10080 ∧ readWord f.payload 5 < 10080 ∧
      readByte f.payload 7 = true.toNat ∧ firstBadStep s.xlat f.payload 8 2 1 .range) ∧
    Asking 0x0E ([3, 0, 0, 0xFF, 0xFF, 0, 0, 0] ++ [0x80, 48] ++ (stepBytes 3).drop 2) State.reset (fun s f =>
      f.payload.length = 8 + 9 * 1 ∧ readWord f.payload 3 = 0xFFFF ∧ readByte f.payload 7 = false.toNat ∧
      firstBadStep s.xlat f.payload 8 1 0 .noOutlet) ∧
    Asking 0x0E ([3, 0, 0, 0xFF, 0xFF, 0, 0, 0] ++ (List.replicate 12 (stepBytes 0)).flatten)
      ((State.reset.setSlot 0 { resetSlot with steps := List.replicate 32 step5 }).setSlot 1
        { resetSlot with steps := List.replicate 21 step5 }) (fun s f => f.payload.length = 8 + 9 * 12 ∧ s.stepsStored ≤ 64 ∧
      64 + (s.slot 3).steps.length < s.stepsStored + 12) := by
  unfold Asking State.takes firstBadStep
  refine ⟨?_, ?_, ?_, ?_, ?_, ?_⟩ <;> decide +kernel

/-- What the statement asks of a FIRST part of `n` steps for slot 3, with START IMMEDIATE. -/
abbrev FirstFields (n : Nat) (s : State) (f : Frame) : Prop :=
  f.payload.length = 8 + 9 * n ∧ n ≤ 12 ∧ readByte f.payload 1 = 0 ∧ s.stepsStored + n ≤ 64 + (s.slot 3).steps.length ∧
  (3 : SlotId).val = readByte f.payload 0 ∧ (s.slot 3).state = .empty ∧ readWord f.payload 3 = 0xFFFF ∧
  readWord f.payload 5 < 10080 ∧ readByte f.payload 7 = false.toNat

/-- The steps that payloads of one step and of none carry. -/
theorem witness_FirstPartReplacesProgram_steps :
    Asking 0x0E ([3, 0, 0, 0xFF, 0xFF, 0, 0, 0] ++ stepBytes 0) State.reset (fun s f =>
      FirstFields 1 s f ∧ carriesSteps s.xlat f.payload 8 1 [step5]) ∧
    Asking 0x0E [3, 0, 0, 0xFF, 0xFF, 0, 0, 0] State.reset (fun s f =>
      FirstFields 0 s f ∧ carriesSteps s.xlat f.payload 8 0 []) := by
  unfold Asking State.takes carriesSteps
  refine ⟨⟨by decide +kernel, by decide +kernel, by decide +kernel, rfl, ?_⟩, by decide +kernel, by decide +kernel,
    by decide +kernel, rfl, ?_⟩
  · intro k hk
    obtain rfl : k = 0 := by omega
    exact ⟨5, .sanitary, by decide +kernel, by decide +kernel, by decide +kernel⟩
  · intro k hk
    omega

/-- A slot LOADED with this many steps. -/
def loadedWith (n : Nat) : State :=
  State.reset.setSlot 0 { resetSlot with steps := List.replicate n step5, state := .loaded, results := List.replicate n .notRun }

/-- Each refusal in turn, a slot at 31 and 32 steps, and a store of 64. -/
theorem witness_NextPartAppendsSteps :
    Asking 0x0E ([4, 1] ++ stepBytes 0) State.reset (fun s f => f.payload.length = 2 + 9 * 1 ∧ readByte f.payload 1 = 1 ∧
      s.stepsStored ≤ 64 ∧ 4 ≤ readByte f.payload 0) ∧
    Asking 0x0E ([0, 1] ++ stepBytes 0) State.reset (fun s f => (0 : SlotId).val = readByte f.payload 0 ∧
      (s.slot 0).state ≠ .loaded) ∧
    Asking 0x0E ([0, 1] ++ (List.replicate 11 (stepBytes 0)).flatten ++ stepBytes 4) (loadedWith 1) (fun s f =>
      f.payload.length = 2 + 9 * 12 ∧ (s.slot 0).state = .loaded ∧ firstBadStep s.xlat f.payload 2 12 11 .range) ∧
    Asking 0x0E ([0, 1] ++ stepBytes 0) (loadedWith 32) (fun s _ => (s.slot 0).state = .loaded ∧ s.stepsStored ≤ 64 ∧
      32 < (s.slot 0).steps.length + 1) ∧
    Asking 0x0E ([0, 1] ++ stepBytes 0) (((loadedWith 20).setSlot 1 { resetSlot with steps := List.replicate 32 step5 }).setSlot 2
        { resetSlot with steps := List.replicate 12 step5 }) (fun s _ => (s.slot 0).state = .loaded ∧ s.stepsStored ≤ 64 ∧
      (s.slot 0).steps.length + 1 ≤ 32 ∧ 64 < s.stepsStored + 1) ∧
    Asking 0x0E ([0, 1] ++ stepBytes 0) (loadedWith 31) (fun s _ => (s.slot 0).state = .loaded ∧
      (s.slot 0).steps.length + 1 ≤ 32 ∧ s.stepsStored + 1 ≤ 64) := by
  unfold Asking State.takes firstBadStep
  refine ⟨?_, ?_, ?_, ?_, ?_, ?_⟩ <;> decide +kernel

theorem witness_NextPartAppendsSteps_steps : Asking 0x0E ([0, 1] ++ stepBytes 0) (loadedWith 31) (fun s f =>
    (f.payload.length = 2 + 9 * 1 ∧ readByte f.payload 1 = 1 ∧ (0 : SlotId).val = readByte f.payload 0 ∧
      (s.slot 0).state = .loaded ∧ (s.slot 0).steps.length + 1 ≤ 32 ∧ s.stepsStored + 1 ≤ 64) ∧
    carriesSteps s.xlat f.payload 2 1 [step5]) := by
  unfold Asking State.takes carriesSteps
  refine ⟨by decide +kernel, by decide +kernel, by decide +kernel, rfl, ?_⟩
  intro k hk
  obtain rfl : k = 0 := by omega
  exact ⟨5, .sanitary, by decide +kernel, by decide +kernel, by decide +kernel⟩

/-- Slot 3 in this state, to start at minute 1500 or at once. -/
def slotIn (st : SlotState) (start : Option Nat) (isSet : Bool) : State :=
  { State.reset.setSlot 3 { resetSlot with steps := [step5], loops := 1, start, state := st, results := [.notRun] } with
    clock := { resetClock with isSet } }

theorem witness_ProgramStartsAndStops :
    (Asking 0x0F [4] State.reset (fun _ f => f.payload.length = 1 ∧ 4 ≤ readByte f.payload 0) ∧
      Asking 0x10 [4] State.reset (fun _ f => f.payload.length = 1 ∧ 4 ≤ readByte f.payload 0)) ∧
    (∀ st ∈ [SlotState.empty, .waiting, .running], Asking 0x0F [3] (slotIn st none true) (fun s f =>
      (3 : SlotId).val = readByte f.payload 0 ∧ (s.slot 3).state = st)) ∧
    (∀ st ∈ [SlotState.loaded, .done, .faulted, .stopped], ∀ b ∈ [false, true], ∀ m ∈ [none, some 1500],
      Asking 0x0F [3] (slotIn st m b) (fun s f => (3 : SlotId).val = readByte f.payload 0 ∧ (s.slot 3).state = st ∧
        (s.slot 3).start = m ∧ s.clock.isSet = b)) ∧
    Asking 0x10 [3] (slotIn .done none true) (fun s f => (3 : SlotId).val = readByte f.payload 0 ∧
      (s.slot 3).state ≠ .waiting ∧ (s.slot 3).state ≠ .running) ∧
    Asking 0x10 [3] (slotIn .waiting (some 1500) true) (fun s _ => (s.slot 3).state = .waiting ∧
      (s.slot 3).currentStep = none) ∧
    (∀ ph ∈ [Phase.reaching, .holding], Asking 0x10 [0] (claimed ph) (fun s _ => (s.slot 0).state = .running ∧
      (s.slot 0).currentStep = some step5 ∧ s.claim 5 = { holder := some { slot := 0, step := 1, kw := 400 }, waiters := [] })) ∧
    Asking 0x10 [1] ((claimed .reaching).setSlot 1 (busySlot .claiming)) (fun s _ => (s.slot 1).state = .running ∧
      (s.slot 1).currentStep = some step5 ∧
      ((s.claim 5).holder.all fun h => decide (h.slot ≠ 1)) = true) := by
  unfold Asking State.takes
  refine ⟨⟨?_, ?_⟩, ?_, ?_, ?_, ?_, ?_, ?_⟩ <;> decide +kernel

theorem witness_ProgramStartsAndStops_pass : ∀ s ∈ [(plant .idle).setSlot 0 (busySlot .none)],
    (s.slot 0).steps[0]? = some step5 ∧ s.outlet step5.channel = some (outlet .idle) ∧ (outlet .idle).feederOf = none ∧
    (outlet .idle).bars.prog = false ∧ (outlet .idle).bars.all = false ∧ (outlet .idle).state ≠ .faulted ∧
    (outlet .idle).state ≠ .held ∧ s.claim step5.channel = { holder := none, waiters := [] } ∧ step5.targetTemp ≠ 0 ∧
    (s.sensor (branchInput step5.channel)).faulted = false := by decide +kernel

/-- Each timer at 0 and not; the last loop, a loop more, and loops without end; passes with and without an interval. -/
theorem witness_ProgramTimersExpire :
    (State.reset.rstLow = false ∧ (State.reset.slot 0).reach ≠ some 0 ∧ (State.reset.slot 0).hold ≠ some 0 ∧
      (State.reset.slot 0).gap ≠ some 0) ∧
    (((plant .idle).setSlot 0 { busySlot .none with curStep := 0, gap := some 0 }).slot 0).gap = some 0 ∧
    (∀ x ∈ [{ busySlot .reaching with reach := some 0 }], ∀ s ∈ [(claimed .reaching).setSlot 0 x],
      s.rstLow = false ∧ x = s.slot 0 ∧ x.currentStep = some step5 ∧
      s.claim step5.channel = { holder := some { slot := 0, step := 1, kw := 400 }, waiters := [] } ∧ x.reach = some 0 ∧
      x.continueOnFault = false) ∧
    ∀ n ∈ [0, 1, 2], ∀ v ∈ [0, 60], ∀ x ∈ [{ busySlot .holding with hold := some 0, loops := n, loopsLeft := n, intervalMin := v }],
      ∀ s ∈ [(claimed .holding).setSlot 0 x], x = s.slot 0 ∧ x.currentStep = some step5 ∧
        s.claim step5.channel = { holder := some { slot := 0, step := 1, kw := 400 }, waiters := [] } ∧ x.hold = some 0 ∧
        x.curStep = x.steps.length ∧ x.loops = n ∧ x.loopsLeft = n ∧ x.intervalMin = v := by decide +kernel

/-! ### Sensors, clock, read requests -/

/-- Readings at and past each end of the range of a temperature and of the header pressure; a WARMING outlet at WARM_TEMP. -/
theorem witness_SampleEventMovesRecord :
    State.reset.rstLow = false ∧ (State.reset.claim 5).holder = none ∧
    (∀ x ∈ [(-201, false), (-200, true), (2000, true), (2001, false)], (5 : InputId) ≠ 48 ∧
      x.2 = decide (-200 ≤ (x.1 : Int) ∧ x.1 ≤ 2000)) ∧
    (∀ x ∈ [(-1, false), (0, true), (1600, true), (1601, false)], x.2 = decide (0 ≤ (x.1 : Int) ∧ x.1 ≤ 1600)) ∧
    48 ≤ (50 : InputId).val ∧ (5 : Channel).val = (5 : InputId).val ∧
    (plant .warming).outlet 5 = some (outlet .warming) ∧ (outlet .warming).state = .warming ∧
    ((plant .warming).sensor 5).faulted = false ∧ (outlet .warming).fixed.warmTemp ≤ 950 ∧
    949 < (outlet .warming).fixed.warmTemp := by decide +kernel

theorem witness_ClockTicksAndLoads :
    ((waiting1500 1499 58).rstLow = false ∧ (waiting1500 1499 58).clock.second < 59) ∧
    59 ≤ (waiting1500 1499 59).clock.second ∧
    ((waiting1500 1499 59).slot 0).state = .waiting ∧ ((waiting1500 1499 59).slot 0).waitMinute = some 1500 ∧
    ((plant .idle).setDemand 5 (.current 70 3)).demand 5 = .current 70 3 ∧ (State.reset.demand 5 = .absent) ∧
    (∀ p ∈ [[0x27, 0x60, 0], [0, 0, 60]], Asking 0x11 p State.reset (fun _ f => f.payload.length = 3 ∧
      (10080 ≤ readWord f.payload 0 ∨ 60 ≤ readByte f.payload 2))) ∧
    Asking 0x11 [0x27, 0x5F, 59] State.reset (fun _ f => f.payload.length = 3 ∧ readWord f.payload 0 < 10080 ∧
      readByte f.payload 2 < 60) := by
  unfold Asking State.takes
  refine ⟨?_, ?_, ?_, ?_, ?_, ?_, ?_, ?_⟩ <;> decide +kernel

theorem witness_ReadsAreSnapshots :
    AtNone 0x12 [] (plant .serving) ∧ AtFive 0x12 [] (plant .serving) (fun s => s.outlet 5 = some (outlet .serving)) ∧
    Asking 0x13 [3] State.reset (fun _ f => f.payload.length = 1 ∧ 3 ≤ readByte f.payload 0) ∧
    (∀ x ∈ [(0, Pool.steam), (1, .hw .hw1), (2, .hw .hw2)], Asking 0x13 [x.1] State.reset (fun _ f => f.payload.length = 1 ∧
      poolOf (readByte f.payload 0) = some x.2)) ∧
    Asking 0x14 [4] State.reset (fun _ f => f.payload.length = 1 ∧ 4 ≤ readByte f.payload 0) ∧
    Asking 0x14 [3] (claimed .holding) (fun _ f => f.payload.length = 1 ∧ (3 : SlotId).val = readByte f.payload 0) ∧
    (∀ p ∈ [[51, 1], [0, 0], [0, 25], [28, 24]], Asking 0x15 p State.reset (fun _ f => f.payload.length = 2 ∧
      (50 < readByte f.payload 0 ∨ readByte f.payload 1 = 0 ∨ 24 < readByte f.payload 1 ∨
        51 < readByte f.payload 0 + readByte f.payload 1))) ∧
    (∀ p ∈ [[50, 1], [27, 24]], Asking 0x15 p State.reset (fun _ f => f.payload.length = 2 ∧ 1 ≤ readByte f.payload 1 ∧
      readByte f.payload 1 ≤ 24 ∧ readByte f.payload 0 + readByte f.payload 1 ≤ 51)) ∧
    Asking 0x17 [] State.reset (fun _ f => f.payload = []) := by
  unfold AtNone AtFive Asking State.takes
  refine ⟨?_, ?_, ?_, ?_, ?_, ?_, ?_, ?_, ?_⟩ <;> decide +kernel

/-! ### Lengths, ranges and codes at their ends -/

/-- Each kind with a payload one byte short or long, or between two fitting lengths; DEMAND and MAP-SET past their lists; POOL-SET
at the length of the other kind of pool; each part of PROG-LOAD at a length of the other, and one without a part code. -/
theorem witness_ExecutionWaitsAndChecksFrame_lengths :
    (∀ x ∈ [(0x01, 22), (0x01, 24), (0x02, 1), (0x12, 3), (0x15, 1), (0x03, 11), (0x04, 6), (0x09, 0), (0x19, 2), (0x0C, 8), (0x11, 4),
        (0x16, 1), (0x1A, 1)], Asking (byte x.1) (List.replicate x.2 0) State.reset (fun _ f =>
      1 ≤ f.kind.toNat ∧ f.kind.toNat ≤ 0x1A ∧ f.payload.length = x.2)) ∧
    (∀ n ∈ [0, 3, 65, 68], Asking 0x05 (List.replicate n 0) State.reset (fun _ f => f.payload.length = n ∧
      ∀ k : Nat, 1 ≤ k → k ≤ 16 → n ≠ 4 * k)) ∧
    (∀ n ∈ [0, 2, 34, 35], Asking 0x0D (List.replicate n 0) State.reset (fun _ f => f.payload.length = n ∧
      ∀ k : Nat, k ≤ 16 → n ≠ 1 + 2 * k)) ∧
    (Asking 0x08 (0 :: List.replicate 13 0) State.reset (fun _ f => readByte f.payload 0 = 0 ∧ f.payload.length ≠ 16) ∧
      (∀ c ∈ [1, 2], Asking 0x08 (c :: List.replicate 15 0) State.reset (fun _ f => readByte f.payload 0 = c ∧
        f.payload.length ≠ 14)) ∧
      Asking 0x08 (3 :: List.replicate 14 0) State.reset (fun _ f => f.payload.length ≠ 16 ∧ f.payload.length ≠ 14)) ∧
    (Asking 0x0E [0, 1, 0, 0, 0, 0, 0, 0] State.reset (fun _ f => readByte f.payload 1 = 1 ∧
        ∀ k : Nat, 1 ≤ k → k ≤ 12 → f.payload.length ≠ 2 + 9 * k) ∧
      Asking 0x0E (List.replicate 11 0) State.reset (fun _ f => readByte f.payload 1 = 0 ∧
        ∀ k : Nat, k ≤ 12 → f.payload.length ≠ 8 + 9 * k) ∧
      ∀ p ∈ [[], [0], [0, 2, 0]], Asking 0x0E p State.reset (fun _ f => (∀ k : Nat, k ≤ 12 → f.payload.length ≠ 8 + 9 * k) ∧
        ∀ k : Nat, 1 ≤ k → k ≤ 12 → f.payload.length ≠ 2 + 9 * k)) := by
  unfold Asking State.takes
  refine ⟨?_, ?_, ?_, ⟨?_, ?_, ?_⟩, ?_, ?_, ?_⟩ <;> decide +kernel

/-- The ends of the ranges of WARM_TEMP and WEIGHT and one past each, for an outlet of each kind of pool. -/
theorem witness_OutletClampsGiveRanges_ends :
    (∀ x ∈ [(-201 : Int), -200, 2000, 2001], ∀ fx ∈ [{ (outlet .idle).fixed with warmTemp := x }],
      (fx.warmTemp < -200 ↔ x = -201) ∧ (2000 < fx.warmTemp ↔ x = 2001)) ∧
    (∀ w ∈ [0, 1, 15, 16], ∀ y ∈ [{ profile with weight := w }], (y.weight = 0 ↔ w = 0) ∧ (15 < y.weight ↔ w = 16)) ∧
    (outlet .idle).fixed.pool = .steam ∧
    ∀ h ∈ [HwPool.hw1, .hw2], ({ (outlet .idle).fixed with pool := .hw h } : FixedPart).pool = .hw h := by decide +kernel

theorem witness_PoolSetDesignatesFeeder_range : ∀ p ∈ [hwBytes 3 0 0xFF 0xFF, hwBytes 1 2 0xFF 0xFF, hwBytes 2 255 0xFF 0xFF],
    Asking 0x08 p State.reset (fun _ f => f.payload.length = 14 ∧ (3 ≤ readByte f.payload 0 ∨
      ((readByte f.payload 0 = 1 ∨ readByte f.payload 0 = 2) ∧ 2 ≤ readByte f.payload 1))) := by
  unfold Asking State.takes; decide +kernel

/-- A part code of 2 at a NEXT part's length, with one step and with twelve. -/
theorem witness_FirstPartReplacesProgram_part : ∀ n ∈ [1, 12], Asking 0x0E ([0, 2] ++ (List.replicate n (stepBytes 0)).flatten)
    State.reset (fun _ f => f.payload.length = 2 + 9 * n ∧ 2 ≤ readByte f.payload 1) := by
  unfold Asking State.takes; decide +kernel

/-! ### Claims that pass on -/

/-- Slot 0 with these steps, in its first, with CONTINUE_ON_FAULT, loops and an interval as given. -/
def inStep (steps : List Step) (cont : Bool) (loops interval : Nat) (ph : Phase) : ProgSlot :=
  { busySlot ph with steps, continueOnFault := cont, loops, loopsLeft := loops, intervalMin := interval,
                     reach := some 0, hold := some 0, results := List.replicate steps.length .notRun }

/-- Slot 0 as given holds the claim of channel 5, and slot 1 waits behind it for `st`. -/
def inLine (x : ProgSlot) (st : Step) : State :=
  (((plant .serving).setSlot 0 x).setSlot 1 { busySlot .claiming with steps := [st] }).setClaim 5
    { holder := some { slot := 0, step := 1, kw := 400 }, waiters := [1] }

/-- Input 5 is FAULTED. -/
def blind (s : State) : State :=
  s.setSensor 5 { resetSensor with faulted := true, badRun := 2 }

/-- The holder has given up the claim of channel 5. -/
def released (s : State) : State :=
  s.setClaim 5 { s.claim 5 with holder := none }

/-- What a holder's failing or passing step asks: `x` is slot 0 in a step on channel 5, whose claim it holds and does not await. -/
def Holds (x : ProgSlot) (s : State) : Prop :=
  s.slot 0 = x ∧ x.currentStep = some step5 ∧ (s.claim 5).holder = some { slot := 0, step := 1, kw := 400 } ∧ (0 : SlotId) ∉ (s.claim 5).waiters ∧
    s.rstLow = false

theorem takesSteps_outlet : (outlet .idle).takesSteps ∧ (outlet .serving).takesSteps := by
  unfold Outlet.takesSteps; decide

/-- Slot 1 takes the claim that slot 0 has given up. -/
theorem passesOn_inLine (x : ProgSlot) : State.PassesOn 5 (released (inLine x step5)) (((released (inLine x step5)).setClaim 5
    { holder := some { slot := 1, step := 1, kw := 400 }, waiters := [] }).setSlot 1 (busySlot .reaching)) :=
  .taken _ _ 1 [] step5 rfl (by decide) rfl ⟨outlet .serving, _, rfl, rfl, .inl ⟨by decide, rfl, rfl⟩⟩

/-- The head of the queue takes the claim: for a temperature, and for a time alone; a head with a FAULTED input fails; no head. -/
theorem witness_passesOn (x : ProgSlot) :
    (∃ t, State.PassesOn 5 (released (inLine x step5)) t) ∧
    (∃ t, State.PassesOn 5 (released (inLine x { step5 with targetTemp := 0, holdMin := 1 })) t) ∧
    (∃ t, State.PassesOn 5 (released (blind (inLine x step5))) t) ∧
    (∃ t, State.PassesOn 5 (released (claimed .holding)) t) := by
  refine ⟨⟨_, passesOn_inLine x⟩,
    ⟨_, .taken _ _ 1 [] _ rfl (by decide) rfl ⟨outlet .serving, _, rfl, rfl, .inr ⟨rfl, by decide, rfl⟩⟩⟩,
    ⟨_, .sensor _ _ 1 [] step5 rfl (by decide) rfl rfl (by decide) rfl rfl (.free _ rfl)⟩,
    ⟨_, .free _ rfl⟩⟩


/-- Every way on for the slot whose step has come to a result: its run ends; it begins its next step behind the new holder, or on
the outlet of channel 6; or its pass ends, with its last loop, in the 1 s gap, or in a wait. -/
theorem witness_BarFailsHoldingStep_holder :
    (∀ why, Holds (inStep [step5] false 1 0 .holding) (inLine (inStep [step5] false 1 0 .holding) step5) ∧
      ∃ u t, State.PassesOn 5 (released (inLine (inStep [step5] false 1 0 .holding) step5)) u ∧ u.settles t 0 why) ∧
    (∃ u t, State.PassesOn 5 (released (inLine (inStep [step5, step5] true 1 0 .holding) step5)) u ∧ u.settles t 0 .barred) ∧
    (∃ u t, State.PassesOn 5 (released ((inLine (inStep [step5, { step5 with channel := 6 }] true 1 0 .holding) step5).setOutlet 6
      (some (outlet .idle)))) u ∧ u.settles t 0 .barred) ∧
    (∃ u t, State.PassesOn 5 (released (inLine (inStep [step5] true 1 0 .holding) step5)) u ∧ u.settles t 0 .barred) ∧
    (∃ u t, State.PassesOn 5 (released (blind (inLine (inStep [step5] true 0 0 .holding) step5))) u ∧ u.settles t 0 .sensor) ∧
    (∃ u t, State.PassesOn 5 (released ((claimed .holding).setSlot 0 (inStep [step5] true 2 60 .holding))) u ∧
      u.settles t 0 .travel) := by
  refine ⟨fun _ => ⟨by unfold Holds; decide +kernel, _, _, passesOn_inLine _, .inl ⟨rfl, rfl⟩⟩,
    ⟨_, _, passesOn_inLine _,
      .inr ⟨rfl, .inl ⟨by decide +kernel, step5, outlet .serving, _, by decide, rfl, rfl, takesSteps_outlet.2, rfl,
        .inl ⟨_, rfl, rfl⟩⟩⟩⟩,
    ⟨_, _, .taken _ _ 1 [] step5 rfl (by decide) rfl
      ⟨outlet .serving, _, rfl, rfl, .inl ⟨by decide, rfl, rfl⟩⟩,
      .inr ⟨rfl, .inl ⟨by decide +kernel, _, outlet .idle, _, by decide, rfl, rfl, takesSteps_outlet.1, rfl,
        .inr ⟨rfl, outlet .idle, _, rfl, rfl, .inl ⟨by decide, rfl, rfl⟩⟩⟩⟩⟩,
    ⟨_, _, passesOn_inLine _,
      .inr ⟨rfl, .inr ⟨by decide +kernel, _, _, rfl, rfl, .inl ⟨by decide +kernel, rfl, rfl⟩⟩⟩⟩,
    ⟨_, _, .sensor _ _ 1 [] step5 rfl (by decide) rfl rfl (by decide) rfl rfl (.free _ rfl),
      .inr ⟨rfl, .inr ⟨by decide +kernel, _, _, rfl, rfl, .inr (.inl ⟨.inl rfl, rfl, rfl⟩)⟩⟩⟩,
    ⟨_, _, .free _ rfl, .inr ⟨rfl, .inr ⟨by decide +kernel, _, _, rfl, rfl, .inr (.inr ⟨.inr (by decide +kernel), by decide +kernel,
      rfl⟩)⟩⟩⟩⟩

/-- Slots 0 and 1 both fail on the outlet; a free claim; and a waiter that fails alone, its run ending or its pass. -/
theorem witness_BarFailsHoldingStep_waiters :
    (∀ s ∈ [inLine (inStep [step5] false 1 0 .holding) step5], (s.claim 5).waiters.Nodup ∧ (0 : SlotId) ∉ (s.claim 5).waiters ∧
      ∀ j ∈ (0 : SlotId) :: (s.claim 5).waiters, (s.slot j).continueOnFault = false ∧ (s.slot j).currentStep = some step5) ∧
    ((plant .idle).claim 5).holder = none ∧ ((plant .idle).claim 5).waiters = [] ∧
    (∀ why, ∃ t, State.settles ((inLine (inStep [step5] false 1 0 .holding) step5).setClaim 5
      { holder := some { slot := 0, step := 1, kw := 400 }, waiters := [] }) t 1 why) ∧
    ((inLine (inStep [step5] false 1 0 .holding) step5).slot 1).currentStep = some step5 := by
  exact ⟨by decide +kernel, by decide +kernel, by decide +kernel, fun _ => ⟨_, .inl ⟨rfl, rfl⟩⟩, by decide +kernel⟩

/-- PROG-STOP of the holder, of the slot waiting behind it, and of the holder with that slot to take the claim. -/
theorem witness_ProgramStartsAndStops_stop : ∀ s ∈ [inLine (inStep [step5] false 1 0 .holding) step5],
    (Asking 0x10 [0] s (fun s _ => (s.slot 0).state = .running ∧ Holds (inStep [step5] false 1 0 .holding) s)) ∧
    Asking 0x10 [1] s (fun s _ => (s.slot 1).state = .running ∧ (s.slot 1).currentStep = some step5 ∧
      (s.claim 5).waiters = [1] ∧ ((s.claim 5).holder.all fun h => decide (h.slot ≠ 1)) = true) := by
  unfold Asking State.takes Holds; decide +kernel

/-- The state that the STOP of slot 0 leaves for the next step, in which slot 1 takes the claim. -/
theorem witness_ProgramStartsAndStops_passes (y : ProgSlot) :
    ∃ t, State.PassesOn 5 ((released ((asked (frame 0x10 [0]) (inLine (inStep [step5] false 1 0 .holding) step5)).dequeue [])).setSlot 0
      y) t :=
  ⟨_, .taken _ _ 1 [] step5 rfl (by decide) rfl
      ⟨outlet .serving, _, rfl, rfl, .inl ⟨by decide, rfl, rfl⟩⟩⟩

/-- A program to start: its first step waits behind slot 1, takes the claim for a temperature, and takes it for a time alone. -/
theorem witness_ProgramStartsAndStops_begins :
    (∀ c ∈ [{ inStep [step5] false 1 0 .none with curStep := 0 }], c.steps[0]? = some step5) ∧
    (∃ t, State.begins (((plant .idle).setSlot 0 (inStep [step5] false 1 0 .none)).setClaim 5
      { holder := some { slot := 1, step := 1, kw := 9 }, waiters := [2] }) t 0 1) ∧
    (∃ t, State.begins ((plant .idle).setSlot 0 (inStep [step5] false 1 0 .none)) t 0 1) ∧
    ∃ t, State.begins ((plant .idle).setSlot 0 (inStep [{ step5 with targetTemp := 0, holdMin := 1 }] false 1 0 .none)) t 0 1 := by
  refine ⟨by decide, ⟨_, step5, outlet .idle, _, by decide, rfl, rfl, takesSteps_outlet.1, rfl, .inl ⟨_, rfl, rfl⟩⟩,
    ⟨_, step5, outlet .idle, _, by decide, rfl, rfl, takesSteps_outlet.1, rfl,
      .inr ⟨rfl, outlet .idle, _, rfl, rfl, .inl ⟨by decide, rfl, rfl⟩⟩⟩,
    ⟨_, _, outlet .idle, _, by decide, rfl, rfl, takesSteps_outlet.1, rfl,
      .inr ⟨rfl, outlet .idle, _, rfl, rfl, .inr ⟨rfl, by decide, rfl⟩⟩⟩⟩

/-- Each reason for which a first step fails, and the ways on from there; and a step that holds for no time passes. -/
theorem witness_ProgramStartsAndStops_fails :
    State.reset.failsBeginning step5 .noOutlet ∧ (feeding .idle).failsBeginning step5 .feeder ∧
    (State.reset.setOutlet 5 (some (lockedOutlet .locked))).failsBeginning step5 .barred ∧
    (plant .faulted).failsBeginning step5 .travel ∧ (plant .held).failsBeginning step5 .handoff ∧
    (blind (plant .idle)).failsBeginning step5 .sensor ∧
    (∀ s ∈ [State.reset, feeding .idle, plant .faulted, plant .held, blind (plant .idle)], s.claim 5 = { holder := none, waiters := [] }) ∧
    (∀ why, ∃ t, State.settles (State.reset.setSlot 0 ((inStep [step5] false 1 0 .none).begun 1 step5)) t 0 why) ∧
    (∀ why, ∃ t, State.settles (State.reset.setSlot 0 ((inStep [step5] true 0 0 .none).begun 1 step5)) t 0 why) ∧
    (outlet .idle).takesSteps ∧
    ∃ t, State.goesOn ((plant .idle).setSlot 0 (((inStep [{ step5 with targetTemp := 0, holdMin := 0 }, step5] false 1 0 .none).begun 1
      { step5 with targetTemp := 0, holdMin := 0 }).resulted .passed)) t 0 := by
  refine ⟨.inl ⟨rfl, rfl⟩, .inr ⟨_, rfl, .inl ⟨by decide, rfl⟩⟩, .inr ⟨_, rfl, .inr (.inl ⟨rfl, .inr rfl, rfl⟩)⟩,
    .inr ⟨_, rfl, .inr (.inr ⟨rfl, rfl, rfl, .inl ⟨rfl, rfl⟩⟩)⟩, .inr ⟨_, rfl, .inr (.inr ⟨rfl, rfl, rfl, .inr (.inl ⟨rfl, rfl⟩)⟩)⟩,
    .inr ⟨_, rfl, .inr (.inr ⟨rfl, rfl, rfl, .inr (.inr ⟨by decide, by decide, rfl, by decide, rfl, rfl⟩)⟩)⟩, by decide +kernel,
    fun _ => ⟨_, .inl ⟨rfl, rfl⟩⟩, fun _ => ⟨_, .inr ⟨rfl, .inr ⟨Nat.le_refl 1, _, _, rfl, rfl, .inr (.inl ⟨.inl rfl, rfl, rfl⟩)⟩⟩⟩,
    takesSteps_outlet.1,
    ⟨_, .inl ⟨by decide +kernel, step5, outlet .idle, _, by decide, rfl, rfl, takesSteps_outlet.1, rfl,
      .inr ⟨rfl, outlet .idle, _, rfl, rfl, .inl ⟨by decide, rfl, rfl⟩⟩⟩⟩⟩

/-- The timers of a holder with slot 1 behind it, and of a waiter: each expired, with a way on. -/
theorem witness_ProgramTimersExpire_line : ∀ s ∈ [inLine (inStep [step5, step5] true 1 0 .holding) step5],
    Holds (inStep [step5, step5] true 1 0 .holding) s ∧ (s.slot 0).reach = some 0 ∧ (s.slot 0).hold = some 0 ∧
    (s.setSlot 1 { s.slot 1 with reach := some 0 }).claim 5 = { holder := some { slot := 0, step := 1, kw := 400 }, waiters := [1] } := by
  unfold Holds; decide +kernel

theorem witness_ProgramTimersExpire_goes :
    (∃ v t, State.PassesOn 5 (released (inLine (inStep [step5, step5] true 1 0 .holding) step5)) v ∧ v.settles t 0 .timeout) ∧
    (∃ v t, State.PassesOn 5 ((released (inLine (inStep [step5, step5] true 1 0 .holding) step5)).setSlot 0
      ((inStep [step5, step5] true 1 0 .holding).resulted .passed)) v ∧ v.goesOn t 0) ∧
    ∃ t, State.settles (((inLine (inStep [step5] false 1 0 .holding) step5).setSlot 1 (inStep [step5] false 1 0 .claiming)).setClaim 5
      { holder := some { slot := 0, step := 1, kw := 400 }, waiters := [] }) t 1 .timeout := by
  refine ⟨⟨_, _, passesOn_inLine _,
      .inr ⟨rfl, .inl ⟨by decide +kernel, step5, outlet .serving, _, by decide, rfl, rfl, takesSteps_outlet.2, rfl,
        .inl ⟨_, rfl, rfl⟩⟩⟩⟩,
    ⟨_, _, .taken _ _ 1 [] step5 rfl (by decide) rfl
      ⟨outlet .serving, _, rfl, rfl, .inl ⟨by decide, rfl, rfl⟩⟩,
      .inl ⟨by decide +kernel, step5, outlet .serving, _, by decide, rfl, rfl, takesSteps_outlet.2, rfl,
        .inl ⟨_, rfl, rfl⟩⟩⟩,
    ⟨_, .inl ⟨rfl, rfl⟩⟩⟩

/-- The outlet of channel 5 with WARM_KW 100 in set A. -/
def warmOutlet (st : OutletState) : Outlet :=
  { outlet st with setA := { profile with warmKw := 100 } }

/-- One participant whose demand is that of a claim, of a feeder, of a current and a stale record, and of none; in each bank; and
warm-limited or not by its state and by its WARM_KW. -/
theorem witness_CapacityFollowsInputs_demand :
    (∀ s ∈ [claimed .holding], (participants .steam s).map (fun q => q.ch) = [5] ∧
      (s.claim 5).holder = some { slot := 0, step := 1, kw := 400 } ∧ (s.slot 0).steps[1 - 1]? = some step5) ∧
    (∀ s ∈ [feeding .idle], (participants .steam s).map (fun q => q.ch) = [5] ∧ (s.claim 5).holder = none ∧
      s.outlet 5 = some { outlet .idle with feederOf := some .hw1 }) ∧
    (∀ d ∈ [HostDemand.current 400 60, .stale 400, .absent], ∀ s ∈ [(plant .idle).setDemand 5 d],
      (participants .steam s).map (fun q => q.ch) = [5] ∧ (s.claim 5).holder = none ∧ s.outlet 5 = some (outlet .idle) ∧
      (outlet .idle).feederOf = none ∧ s.demand 5 = d) ∧
    (∀ pb ∈ [ProfileBank.a, .b], ∀ st ∈ [OutletState.idle, .warming, .serving], ∀ o ∈ [outlet st, warmOutlet st],
      ∀ s ∈ [(State.reset.setOutlet 5 (some o)).setPool .steam { State.reset.pools.steam with activeBank := pb }],
        (participants .steam s).map (fun q => q.ch) = [5] ∧ (s.pool .steam).activeBank = pb ∧ s.outlet 5 = some o ∧
        o.fixed.pool = .steam ∧ o.state = st ∧ (o.setA.warmKw = 0 ∨ 0 < o.setA.warmKw)) := by
  refine ⟨?_, ?_, ?_, ?_⟩ <;> decide +kernel

/-- A round with a participant, with and without a swap, from each eligible state; one whose target both limits turn into a fault; and
a round of an HW pool with a feeder. -/
theorem witness_RoundWritesPoolRecord_outlets :
    (∀ b ∈ [false, true], ∀ st ∈ [OutletState.idle, .warming, .serving], ∀ s ∈ [(steamOn.setOutlet 5 (some (warmOutlet st))).setPool .steam
        { steamOn.pools.steam with swapPending := b }],
      ∀ bank ∈ [if b = true then ProfileBank.b else .a], ∀ v ∈ [s.setPool .steam { s.pool .steam with activeBank := bank }],
        (bank = (s.pool .steam).activeBank ↔ (s.pool .steam).swapPending = false) ∧
        (allocate (capacity .steam s).c (participants .steam v)).map (fun q => q.ch) = [5] ∧
        s.outlet 5 = some (warmOutlet st) ∧ (s.position 5).homeReq = false ∧ (s.climActive 5 = false ∨ s.olimActive 5 = false)) ∧
    (((runRound .steam (limits true true steamOn)).outlet 5).map fun u => (u.state, u.state.eligible)) = some (.faulted, false) ∧
    ((feeding .serving).hwPart .hw1).feeder = some 5 ∧
    (feeding .serving).outlet 5 = some { outlet .serving with feederOf := some .hw1 } := by
  refine ⟨?_, ?_, ?_, ?_⟩ <;> decide +kernel

theorem witness_GrantsSetStatesAndTargets_feeder : ((feeding .idle).hwPart .hw1).feeder = some 5 ∧
    (feeding .idle).outlet 5 = some { outlet .idle with feederOf := some .hw1 } ∧ ((plant .idle).hwPart .hw1).feeder = none := by
  decide +kernel

/-! ### Samples and claims -/

/-- The holder's step of channel 5: `st` in phase `ph`, after this many dips. -/
def sampled (st : Step) (ph : Phase) (dips : Nat) : State :=
  (claimed ph).setSlot 0 { busySlot ph with steps := [st], dips }

/-- The holder claiming, reaching and holding, on the third dip or before it, at each side of TARGET_TEMP and of 20 below it; a hold of
no time, a step without a temperature, and the reading that enters the fault. -/
theorem witness_SampleEventMovesRecord_claim :
    (∀ st ∈ [step5, { step5 with holdMin := 0 }, { step5 with targetTemp := 0 }], ∀ ph ∈ [Phase.claiming, .reaching, .holding],
      ∀ n ∈ [0, 1, 2], ∀ s ∈ [sampled st ph n], s.rstLow = false ∧ (5 : Channel).val = (5 : InputId).val ∧
        (s.claim 5).holder = some { slot := 0, step := 1, kw := 400 } ∧ (s.slot 0).currentStep = some st ∧ (s.slot 0).phase = ph ∧
        (s.slot 0).dips = n ∧ (s.sensor 5).faulted = false) ∧
    (∀ x ∈ [(700 : Int), 699, 680, 679], -200 ≤ x ∧ x ≤ 2000 ∧ (x < step5.targetTemp ↔ x ≠ 700) ∧
      (x < step5.targetTemp - 20 ↔ x = 679)) ∧
    (∀ s ∈ [(sampled step5 .holding 0).setSensor 5 { resetSensor with badRun := 1 }], (s.sensor 5).faulted = false ∧
      1 ≤ (s.sensor 5).badRun ∧ (s.claim 5).holder = some { slot := 0, step := 1, kw := 400 }) ∧
    ∀ s ∈ [(sampled step5 .reaching 0).setOutlet 5 (some (outlet .warming))], s.outlet 5 = some (outlet .warming) ∧
      (outlet .warming).state = .warming ∧ (outlet .warming).fixed.warmTemp ≤ 950 := by
  refine ⟨?_, ?_, ?_, ?_⟩ <;> decide +kernel

/-! ### Layouts -/

/-- An absent record and one in each state, with each demand, with each motion and tier, a claim held and free. -/
theorem witness_ReadsAreSnapshots_outlet :
    AtFive 0x12 [] State.reset (fun s => s.outlet 5 = none ∧ (s.claim 5).holder = none ∧ (s.position 5).move = none ∧
      (5 : Channel) ∉ s.drive.closing ∧ (5 : Channel) ∉ s.drive.opening) ∧
    (∀ st ∈ [OutletState.homing, .idle, .warming, .serving, .held, .locked, .faulted], ∀ d ∈ [HostDemand.absent, .current 400 60, .stale 400],
      AtFive 0x12 [] ((plant st).setDemand 5 d) (fun s => s.outlet 5 = some (outlet st) ∧ s.demand 5 = d)) ∧
    (∀ d ∈ [MoveDir.closing, .opening], AtFive 0x12 [] (moving d .intermediate 6000 none (outlet .serving)) (fun s =>
      (s.position 5).move = some (leg d .intermediate 6000 none))) ∧
    (∀ x ∈ [([5], []), ([], [(5 : Channel)])], AtFive 0x12 [] ((plant .serving).withQueue x.1 x.2) (fun s =>
      s.drive.closing = x.1 ∧ s.drive.opening = x.2)) ∧
    AtFive 0x12 [] (feeding .idle) (fun s => s.outlet 5 = some { outlet .idle with feederOf := some .hw1 }) ∧
    AtFive 0x12 [] (claimed .holding) (fun s => (s.claim 5).holder = some { slot := 0, step := 1, kw := 400 }) := by
  unfold AtFive Asking State.takes
  refine ⟨?_, ?_, ?_, ?_, ?_, ?_⟩ <;> decide +kernel

/-- A store within bounds; slot 0 holds a claim, slot 1 waits behind it, and slot 2 is EMPTY. -/
theorem witness_ReadsAreSnapshots_program : ∀ s ∈ [((claimed .holding).setSlot 1 (busySlot .claiming)).setClaim 5
      { holder := some { slot := 0, step := 1, kw := 400 }, waiters := [1] }],
    s.storeBounded ∧ (∀ n ∈ [0, 1, 2], Asking 0x14 [n] s (fun _ f => f.payload.length = 1 ∧ readByte f.payload 0 = n)) ∧
    (s.slot 0).currentStep = some step5 ∧ (s.slot 1).currentStep = some step5 ∧ (s.slot 0).state ≠ .empty ∧
    (s.slot 2).state = .empty ∧ (s.slot 2).currentStep = none ∧ (s.slot 2).phase = .none ∧
    (s.claim 5).waiters[0]? = some 1 ∧ (1 : SlotId) ∉ (s.claim 5).waiters.take 0 := by
  unfold Asking State.takes State.storeBounded; decide +kernel

/-- The feeder of HW1 in its pool record, and each fault in the status. -/
theorem witness_ReadsAreSnapshots_rest :
    Asking 0x13 [1] (feeding .idle) (fun s f => poolOf (readByte f.payload 0) = some (.hw .hw1) ∧ (s.hwPart .hw1).feeder = some 5) ∧
    (∀ k ∈ [FaultKind.noClosedLimit, .noOpenLimit, .stuck, .bothLimits], Asking 0x17 [] (State.reset.setOutlet 5 (some
      { outlet .faulted with lastFault := some k })) (fun s f => f.payload = [] ∧ s.outlet 5 = some { outlet .faulted with lastFault := some k })) ∧
    (∀ i ∈ [(0 : InputId), 26, 50], (State.reset.sensor i).badRun < 4 ∧ (State.reset.sensor i).goodRun < 4) := by
  unfold Asking State.takes; refine ⟨?_, ?_, ?_⟩ <;> decide +kernel

/-! ### Needs -/

/-- A still channel with both limits made, at each end of what a target asks of it. -/
theorem witness_GrantedNeedStartsMove_limits :
    (∀ e ∈ [0, 500, 1000], ∀ s ∈ [limits true true ((plant .serving).setPosition 5 { resetPosition with est := e, known := true })],
      s.drive.closing = [] ∧ s.drive.opening = [] ∧ s.slotFree = true ∧ s.climActive 5 = true ∧ s.olimActive 5 = true ∧
      (s.position 5).move = none ∧ (s.position 5).pause = none) ∧
    needIs (some .closing) 0 21 20 true true ∧ needIs (some .closing) 479 500 20 true true ∧ needIs (some .opening) 1000 979 20 true true ∧
    needIs (some .opening) 521 500 20 true true := by
  unfold needIs; decide +kernel

/-- A driving channel at 500 that has moved 200 positions, in each direction and kind: a homing request made and not made, the same
target, and targets for no need, for its own direction and for the other. -/
theorem witness_GrantedNeedStartsMove_driving :
    (∀ d ∈ [MoveDir.closing, .opening], ∀ k ∈ [MoveKind.homing, .toClosed, .toOpen, .intermediate],
      ∀ s ∈ [moving d k 6000 none (outlet .serving)], (s.drive.closing, s.drive.opening, s.handedOff 5) = ([], [], false) ∧
        s.outlet 5 = some (outlet .serving) ∧ (s.position 5).move = some (leg d k 6000 none) ∧ (s.position 5).homeReq = false ∧
        (s.position 5).target = some 250 ∧ (s.position 5).est = 500 ∧ (leg d k 6000 none).elapsed / (leg d k 6000 none).stroke = 200) ∧
    (needIs none 320 300 20 false false ∧ needIs none 680 700 20 false false ∧ needIs none 0 5 20 false true ∧
      needIs none 1000 990 20 true false) ∧
    (needIs (some .closing) 0 300 20 false false ∧ moveIs .closing { resetPosition with est := 300, target := some 0 } 120 .toClosed
      (300 * 120 + 120 * 250)) ∧
    (needIs (some .closing) 0 300 20 false false ∧ moveIs .closing { resetPosition with est := 300, target := some 0, drift := true } 120
      .homing (120 * 1250)) ∧
    (needIs (some .closing) 279 300 20 false false ∧ moveIs .closing { resetPosition with est := 300, target := some 279 } 120 .intermediate
      ((300 - 279) * 120)) ∧
    (needIs (some .opening) 1000 700 20 false false ∧ moveIs .opening { resetPosition with est := 700, target := some 1000 } 120 .toOpen
      ((1000 - 700) * 120 + 120 * 250)) ∧
    (needIs (some .opening) 721 700 20 false false ∧ moveIs .opening { resetPosition with est := 700, target := some 721 } 120
      .intermediate ((721 - 700) * 120)) ∧
    needIs (some .opening) 321 300 20 false false ∧ needIs (some .closing) 679 700 20 false false := by
  refine ⟨by decide +kernel, by unfold needIs; decide, ⟨by unfold needIs; decide, .inr (.inl ⟨rfl, rfl, rfl, rfl, rfl⟩)⟩,
    ⟨by unfold needIs; decide, .inl ⟨.inr ⟨rfl, rfl⟩, rfl, rfl⟩⟩,
    ⟨by unfold needIs; decide, .inr (.inr ⟨rfl, 279, rfl, by decide, rfl, rfl⟩)⟩,
    ⟨by unfold needIs; decide, .inl ⟨rfl, rfl, rfl⟩⟩, ⟨by unfold needIs; decide, .inr ⟨721, rfl, by decide, rfl, rfl⟩⟩,
    by unfold needIs; decide, by unfold needIs; decide⟩

/-- A still channel of a handed-off bank; and one queued in each tier, or in none, among other entries, with a homing request and without. -/
theorem witness_GrantedNeedStartsMove_queued :
    (∀ s ∈ [{ plant .held with handoff := { bho := Table.fill 6 true, handedOff := Table.fill 6 true } }], (s.position 5).move = none ∧
      s.handedOff 5 = true ∧ (5 : Channel) ∉ s.drive.closing ∧ (5 : Channel) ∉ s.drive.opening) ∧
    ∀ h ∈ [false, true], ∀ x ∈ [(([], []) : List Channel × List Channel), ([7, 5], [9]), ([7], [9, 5, 2])],
      ∀ s ∈ [((plant .serving).setPosition 5 { resetPosition with est := 500, homeReq := h }).withQueue x.1 x.2],
        s.outlet 5 = some (outlet .serving) ∧ s.position 5 = { resetPosition with est := 500, homeReq := h } ∧ s.handedOff 5 = false ∧
        (s.drive.closing, s.drive.opening) = x ∧ ((5 : Channel) ∉ s.drive.closing ∨ (5 : Channel) ∉ s.drive.opening) := by
  refine ⟨?_, ?_⟩ <;> decide +kernel

/-- Channels 7 to 14 drive, so that no slot is free. -/
def crowded : State :=
  [(7 : Channel), 8, 9, 10, 11, 12, 13, 14].foldl (fun s c => s.setPosition c { resetPosition with
    move := some (closing .intermediate 6000 0) }) (plant .serving)

/-- No free slot; every entry passed over; and an entry of each tier behind one that pauses and ahead of another. -/
theorem witness_GrantedNeedStartsMove_arbiter :
    (crowded.slotFree = false) ∧
    (∀ s ∈ [((plant .serving).setPosition 7 { resetPosition with pause := some 1 }).withQueue [7] []],
      ∀ x ∈ s.drive.closing ++ s.drive.opening, s.passedOver x) ∧
    (∀ s ∈ [(((plant .serving).setPosition 7 { resetPosition with pause := some 1 }).setPosition 5 { resetPosition with
        est := 500, target := some 0 }).withQueue [7, 5, 8] [9]], s.slotFree = true ∧ ¬s.passedOver 5 ∧ (∀ x ∈ [(7 : Channel)], s.passedOver x) ∧
      s.drive.closing = [7] ++ 5 :: [8] ∧ (5 : Channel) ∉ [(7 : Channel)] ∧ (5 : Channel) ∉ [(8 : Channel)] ∧ (5 : Channel) ∉ s.drive.opening ∧
      s.climActive 5 = false) ∧
    (∀ s ∈ [(((plant .serving).setPosition 7 { resetPosition with pause := some 1 }).setPosition 5 { resetPosition with
        target := some 1000 }).withQueue [7] [5, 9]], s.slotFree = true ∧ ¬s.passedOver 5 ∧ (∀ x ∈ s.drive.closing, s.passedOver x) ∧
      s.drive.opening = [] ++ 5 :: [9] ∧ (5 : Channel) ∉ [(9 : Channel)] ∧ (5 : Channel) ∉ s.drive.closing ∧ s.olimActive 5 = false) ∧
    moveIs .closing { resetPosition with est := 500, target := some 0 } 90 .toClosed (500 * 90 + 90 * 250) ∧
    moveIs .opening { resetPosition with target := some 1000 } 90 .toOpen ((1000 - 0) * 90 + 90 * 250) := by
  unfold State.passedOver
  refine ⟨by decide +kernel, by decide +kernel, by decide +kernel, by decide +kernel, .inr (.inl ⟨rfl, rfl, rfl, rfl, rfl⟩),
    .inl ⟨rfl, rfl, rfl⟩⟩

/-! ### Faults, completions and hand-offs on a claimed outlet -/

/-- Slot 0 holds the claim of channel 5, slot 1 waits, and the outlet in this state drives closed. -/
def claimedMoving (o : Outlet) : State :=
  ((inLine (inStep [step5] false 1 0 .holding) step5).setOutlet 5 (some o)).setPosition 5 { resetPosition with
    est := 500, target := some 250, move := some (leg .closing .intermediate 6000 none) }

theorem witness_FaultStopReportsFault_claimed : ∀ o ∈ [outlet .serving, outlet .homing, outlet .locked,
      { outlet .serving with fixed := { (outlet .idle).fixed with autoRecover := true } }], ∀ s ∈ [claimedMoving o],
    s.drive.closing = [] ∧ s.drive.opening = [] ∧ s.outlet 5 = some o ∧
    (s.position 5).move = some (leg .closing .intermediate 6000 none) ∧ s.claim 5 ≠ { holder := none, waiters := [] } ∧
    (o.state = .homing ∨ o.state = .locked ∨ o.state.eligible = true) := by decide +kernel

/-- The outlet on channel 5, both limits active, and the channel still in a queue with the others of either tier. -/
def stillQueued (o : Outlet) (tiers : List Channel × List Channel) : State :=
  limits true true ((State.reset.setOutlet 5 (some o)).withQueue tiers.1 tiers.2)

/-- The channel's own entry at the head, in the middle and at the tail of either tier, with no slot held; and with a slot held and
every other channel passed over. -/
theorem witness_FaultStopReportsFault_queued : ∀ o ∈ [outlet .serving, outlet .homing, outlet .locked,
      { outlet .serving with fixed := { (outlet .idle).fixed with autoRecover := true } }],
    ∀ x ∈ [([4, 5, 6], [7]), ([5], []), ([4], [5, 6]), ([], [7, 5])], ∀ s ∈ [stillQueued o x],
      s.outlet 5 = some o ∧ 5 ∈ s.drive.closing ++ s.drive.opening ∧ (s.position 5).move = none ∧
      (s.olimActive 5, s.climActive 5) = (true, true) ∧ s.claim 5 = { holder := none, waiters := [] } ∧
      ∀ u ∈ [{ s with handoff := { s.handoff with bho := Table.fill 6 true } }],
        ∀ y ∈ u.drive.closing ++ u.drive.opening, y = 5 ∨ u.passedOver y := by
  unfold State.passedOver; decide +kernel

/-- R122: the second limit at a still queued channel takes its entry away, and EST stands. -/
theorem test_limitEvent_queued : ∀ s ∈ [(stillQueued (outlet .locked) ([4, 5, 6], [7])).setPosition 5 { resetPosition with est := 300 }],
    ∀ t ∈ [went (exec (.limitEvent 5 .clim true) (setLimit 5 .clim false s))],
      (t.drive.closing, t.drive.opening) = ([4, 6], [7]) ∧ (t.position 5).est = 300 ∧
      (t.outlet 5).map (fun o => (o.state, o.lastFault)) = some (.faulted, some .bothLimits) := by decide +kernel

/-- A drift homing with a target stored meanwhile, at the edge of the deadband and past it; and a closing move that ends short of
its target. -/
theorem witness_CompletedMoveComesToRest_stored :
    (∀ x ∈ [20, 21, 300], ∀ s ∈ [limits false true (driving 450 (some x) (some (closing .homing 95400 54600)) (plant .serving))],
      s.drive.closing = [] ∧ s.drive.opening = [] ∧ s.outlet 5 = some (outlet .serving) ∧ s.handedOff 5 = false ∧
      (s.position 5).move = some (closing .homing 95400 54600) ∧ (s.position 5).homeReq = false ∧
      (s.position 5).target = some x ∧ x ≠ 0 ∧ s.climActive 5 = true ∧ s.olimActive 5 = false ∧
      (s.pool (outlet .serving).fixed.pool).settings.deadband = 20) ∧
    needIs none 20 0 20 false true ∧ needIs (some .opening) 21 0 20 false true ∧
    (∀ s ∈ [driving 500 (some 250) (some (closing .intermediate 0 24000)) (plant .serving)], s.handedOff 5 = false ∧
      (s.position 5).homeReq = false ∧ (s.position 5).target = some 250 ∧ s.olimActive 5 = false ∧ s.climActive 5 = false) ∧
    (closing .intermediate 0 24000).dir = .closing ∧ needIs (some .closing) 250 271 20 false false ∧ needIs none 250 270 20 false false := by
  unfold needIs; decide +kernel

/-- Bank 0, in which channel 5 alone is claimed, by slot 0 with slot 1 behind it. -/
theorem witness_HandOffTakesAndReturnsBank_claimed (s : State) (hs : s = inLine (inStep [step5] false 1 0 .holding) step5)
    (bank : List Channel) (hb : bank = [0, 1, 2, 3, 4, 5, 6, 7]) :
    s.rstLow = false ∧ s.handoff.bho.get 0 = false ∧ s.handoff.handedOff.get 0 = false ∧ bank.Pairwise (fun x y => x < y) ∧
    (∀ c : Channel, c ∈ bank ↔ bankOf c = 0) ∧ s.outlet 5 = some (outlet .serving) ∧
    (∀ d : Channel, bankOf d = 0 → (s.position d).move = none) ∧
    (∀ d : Channel, bankOf d = 0 → d ≠ 5 → s.claim d = { holder := none, waiters := [] }) ∧
    (s.claim 5).holder = some { slot := 0, step := 1, kw := 400 } ∧ (s.claim 5).waiters = [1] ∧
    ∀ j ∈ (0 : SlotId) :: (s.claim 5).waiters, (s.slot j).continueOnFault = false ∧ (s.slot j).currentStep = some step5 := by
  subst hs hb
  refine ⟨?_, ?_, ?_, ?_, ?_, ?_, ?_, ?_, ?_, ?_, ?_⟩ <;> decide +kernel

/-- Bank 0 comes back with two HELD outlets while every slot is held in bank 3. -/
theorem witness_HandOffTakesAndReturnsBank_queued (s : State) (bank : List Channel) (hb : bank = [0, 1, 2, 3, 4, 5, 6, 7])
    (hs : s = ([24, 25, 26, 27, 28, 29, 30, 31] : List Channel).foldl (fun x c => x.setPosition c { resetPosition with
      move := some (closing .homing 1000 54600) }) { (plant .held).setOutlet 2 (some (outlet .held)) with
        handoff := { bho := Table.fill 6 true, handedOff := Table.fill 6 true } }) :
    s.rstLow = false ∧ s.handoff.bho.get 0 = true ∧ s.handoff.handedOff.get 0 = true ∧ bank.Pairwise (fun x y => x < y) ∧
    (∀ c : Channel, c ∈ bank ↔ bankOf c = 0) ∧ s.slotFree = false ∧
    (∀ c ∈ bank, (s.position c).move = none ∧ c ∉ s.drive.closing ∧ c ∉ s.drive.opening) ∧
    (went (exec (.bhoRelease 0) s)).drive.closing = [2, 5] := by
  subst hs hb
  refine ⟨?_, ?_, ?_, ?_, ?_, ?_, ?_, ?_⟩ <;> decide +kernel

/-- R133, R103, R120: with CLIM open the HELD outlet homes, driving closed; with CLIM made it is home at once; with both, FAULTED. -/
theorem test_bhoRelease_homes : ∀ x ∈ [(false, false, OutletState.homing, true, some (Move.mk .closing .homing 112500 0 90 none)),
      (false, true, .idle, false, none), (true, true, .faulted, false, none)],
    ∀ t ∈ [went (exec (.bhoRelease 0) { limits x.1 x.2.1 (plant .held) with
        handoff := { bho := Table.fill 6 true, handedOff := Table.fill 6 true } })],
      ((t.outlet 5).map (fun u => u.state), (t.position 5).homeReq, (t.position 5).move) =
        (some x.2.2.1, x.2.2.2.1, x.2.2.2.2) := by decide +kernel

/-- R131, R152: the steps of the bank's claimed outlet fail with HANDOFF. -/
theorem test_bhoAssertion_steps : ∀ t ∈ [went (exec (.bhoAssertion 0) (inLine (inStep [step5] false 1 0 .holding) step5))],
    ((t.slot 0).state, (t.slot 0).results, (t.slot 1).state, (t.slot 1).results) =
      (.faulted, [.failed .handoff], .faulted, [.failed .handoff]) ∧ t.claim 5 = { holder := none, waiters := [] } := by
  decide +kernel

/-! ### Invariants: a state that meets each, and a step from it -/

/-- A SERVING outlet, the hotel's ranges, a frame waiting, and a tick of the clock to come. -/
def busy : State :=
  { asked (frame 0x17 []) (plant .serving) with xlat := hotel, pending := [.clockTick] }

theorem busy_steps : step busy = .next (went (step busy)) := by rfl

theorem busy_outlet {c : Channel} {o : Outlet} (h : busy.outlet c = some o) : o = outlet .serving := by
  have e : busy.outlet c = ((plant .serving).outlet c) := rfl
  rw [e, plant, State.outlet_setOutlet] at h
  split at h
  · exact (Option.some.inj h).symm
  · simp [State.reset, afterReset, State.outlet] at h

theorem witness_StepKeepsLinkBounded : busy.linkBounded ∧ step busy = .next (went (step busy)) :=
  ⟨by unfold State.linkBounded; decide +kernel, busy_steps⟩

theorem witness_StepKeepsFramesAndStore : busy.framesFit ∧ busy.storeBounded ∧ step busy = .next (went (step busy)) :=
  ⟨by unfold State.framesFit; decide +kernel, by unfold State.storeBounded; decide +kernel, busy_steps⟩

/-- Slot 0 holds the claim of channel 5 and slot 1 waits behind it, and the holder's hold timer has run out. -/
theorem witness_StepKeepsFramesAndStore_claims (s : State)
    (hs : s = { inLine { inStep [step5] false 1 0 .holding with hold := some 0 } step5 with pending := [.holdTimerExpiry 0] }) :
    s.claimsRight ∧ (s.claim 5).waiters = [1] ∧ step s = .next (went (step s)) ∧ (went (step s)).claim 5 ≠ s.claim 5 := by
  unfold State.claimsRight ProgSlot.timersRight State.stepOn
  subst hs
  refine ⟨⟨?_, ?_⟩, ?_, ?_, ?_⟩ <;> first | rfl | decide +kernel

theorem witness_StepKeepsRecordsInRange : busy.rangesApart ∧ busy.logBounded ∧ busy.scannerInRange ∧
    step busy = .next (went (step busy)) :=
  ⟨hotel_rangesApart _ rfl, by unfold State.logBounded; decide +kernel,
    by unfold State.scannerInRange Sensor.inRange; decide +kernel, busy_steps⟩

theorem witness_StepKeepsGrantsRight : busy.grantsRight ∧ step busy = .next (went (step busy)) := by
  refine ⟨⟨fun c o h => ?_, fun p _ => ?_⟩, busy_steps⟩
  · rw [busy_outlet h]
    exact ⟨fun _ => rfl, fun _ => rfl⟩
  · rcases p with _ | ⟨_ | _⟩ <;> rfl

theorem witness_StepKeepsDriveInRange : busy.drivesBounded ∧ busy.positionsInRange ∧ step busy = .next (went (step busy)) := by
  refine ⟨by unfold State.drivesBounded; decide +kernel, fun c => ?_, busy_steps⟩
  have e : busy.position c = resetPosition := Table.get_fill _ _
  rw [e]
  exact ⟨by decide, forNone rfl, by decide, fun _ => by decide⟩

/-- Two channels queued, and the second limit to come at one of them. -/
theorem witness_StepKeepsDriveInRange_queue (s : State)
    (hs : s = { setLimit 5 .clim false (stillQueued (outlet .locked) ([4, 5], [7])) with pending := [.limitEvent 5 .clim true] }) :
    s.queueRight ∧ s.drive.closing = [4, 5] ∧ step s = .next (went (step s)) ∧ (went (step s)).drive.closing = [4] := by
  unfold State.queueRight
  subst hs
  refine ⟨⟨?_, ?_⟩, ?_, ?_, ?_⟩ <;> first | rfl | decide +kernel

/-- Every bank handed off, a HELD outlet in bank 0, and the bank to be returned: its outlet then homes with its draw kept. -/
theorem witness_StepKeepsDriveInRange_handoff (s : State) (hs : s = { State.reset.setOutlet 5 (some { outlet .held with
      assumedDraw := 120 }) with handoff := { bho := Table.fill 6 true, handedOff := Table.fill 6 true },
                                 pending := [.bhoRelease 0] }) :
    s.handoffRight ∧ s.handedOff 5 = true ∧ step s = .next (went (step s)) ∧
    ((went (step s)).outlet 5).map (fun u => (u.state, u.assumedDraw)) = some (.homing, 120) := by
  unfold State.handoffRight
  subst hs
  refine ⟨?_, ?_, ?_, ?_⟩ <;> first | rfl | decide +kernel

end Sys2Proof.Tests
end

section
/-! Rules about a request taken for execution: what the row of a KIND is, what the state is while the head frame executes, and
when an operand code or an address is refused. -/

namespace Sys2Proof.Machine

/-! ### The state while the head frame executes -/

section
variable (s : State) (rest : List Frame)

@[simp] theorem State.dequeue_xlat : (s.dequeue rest).xlat = s.xlat := rfl
@[simp] theorem State.dequeue_outlet (c : Channel) : (s.dequeue rest).outlet c = s.outlet c := rfl
@[simp] theorem State.dequeue_demand (c : Channel) : (s.dequeue rest).demand c = s.demand c := rfl
@[simp] theorem State.dequeue_curtailment (c : Channel) : (s.dequeue rest).curtailment c = s.curtailment c := rfl
@[simp] theorem State.dequeue_pool (p : Pool) : (s.dequeue rest).pool p = s.pool p := by rcases p with _ | _ | _ <;> rfl
@[simp] theorem State.dequeue_hwPart (h : HwPool) : (s.dequeue rest).hwPart h = s.hwPart h := by cases h <;> rfl
@[simp] theorem State.dequeue_pools : (s.dequeue rest).pools = s.pools := rfl
@[simp] theorem State.dequeue_position (c : Channel) : (s.dequeue rest).position c = s.position c := rfl
@[simp] theorem State.dequeue_queuedTier (c : Channel) : (s.dequeue rest).queuedTier c = s.queuedTier c := rfl
@[simp] theorem State.dequeue_slot (i : SlotId) : (s.dequeue rest).slot i = s.slot i := rfl
@[simp] theorem State.dequeue_freeSteps : (s.dequeue rest).freeSteps = s.freeSteps := rfl
@[simp] theorem State.dequeue_claim (c : Channel) : (s.dequeue rest).claim c = s.claim c := rfl
@[simp] theorem State.dequeue_handedOff (c : Channel) : (s.dequeue rest).handedOff c = s.handedOff c := rfl
@[simp] theorem State.dequeue_isEligible (c : Channel) : (s.dequeue rest).isEligible c = s.isEligible c := rfl

end

/-! ### Taking the head frame -/

/-- The row of a KIND that is not PROG-LOAD follows from the KIND alone. -/
theorem requestRow_of_kind {f : Frame} {k : Byte} (h : f.kind = k) (hk : k.toNat ≠ progLoadKind) :
    requestRow f = kindRow k.toNat := by
  simp [requestRow, h, hk]

/-- A frame taken for execution whose payload fits is answered as its body says. -/
theorem request_answers {row : Instr} {body : List Byte → State → Answer × State} {s t : State} {f : Frame}
    {rest : List Frame} {a : Answer} (h : s.takes f rest) (hrow : requestRow f = row) (hfit : fits row f.payload = true)
    (hb : body f.payload (s.dequeue rest) = (a, t)) : request row body s = .next (t.answered f a) := by
  rw [request_takes h hrow, if_pos hfit, hb]

theorem atOutlet_ok {p : List Byte} {s : State} {c : Channel} (f : Channel → Answer × State)
    (h : translate s.xlat (readWord p 0) = .ok c) : atOutlet p s f = f c := by
  simp [atOutlet, h]

theorem atOutlet_error {p : List Byte} {s : State} {st : Status} (f : Channel → Answer × State)
    (h : translate s.xlat (readWord p 0) = .error st) : atOutlet p s f = (.refuse st, s) := by
  simp [atOutlet, h]

/-! ### Operand codes (11.5) -/

theorem poolOf_eq_none {n : Nat} (h : 3 ≤ n) : poolOf n = none := by
  match n, h with
  | n + 3, _ => rfl

theorem flagOf_eq_none {n : Nat} (h : 2 ≤ n) : flagOf n = none := by
  match n, h with
  | n + 2, _ => rfl

theorem classOf_eq_none {n : Nat} (h : 4 ≤ n) : classOf n = none := by
  match n, h with
  | n + 4, _ => rfl

theorem bankOfCode_eq_none {n : Nat} (h : 2 ≤ n) : bankOfCode n = none := by
  match n, h with
  | n + 2, _ => rfl

/-- A bar action in its three codes. -/
theorem barAction_getD {n : Nat} {old new : Bool}
    (h : n = 0 ∧ new = old ∨ n = 1 ∧ new = true ∨ n = 2 ∧ new = false) : (barAction n old).getD old = new := by
  rcases h with ⟨rfl, rfl⟩ | ⟨rfl, rfl⟩ | ⟨rfl, rfl⟩ <;> rfl

/-- The status of a request that clamps is DONE exactly where nothing was clamped. -/
theorem doneStatus_cases (b : Bool) :
    (doneStatus b = .done ∨ doneStatus b = .doneClamped) ∧ (doneStatus b = .done ↔ b = false) := by
  cases b <;> simp [doneStatus]

end Sys2Proof.Machine
end

section
/-! The invariant of the grants (R5, R18, R22, R31): every step keeps it. The outlet records and the pools' ENABLE and round
timers carry it, so the operations that write other blocks keep it by congruence, those of the Drive Unit by `KeptByDrive`, and
what is left are the record updates of the requests, the round, and the disable of a pool. -/

namespace Sys2Proof.Machine

/-! ### What a command keeps -/

/-- A request row keeps what its body keeps and a change of the link keeps. -/
theorem execute_keeps {P : State → Prop} (hlink : ∀ (s : State) (l : Link), P s → P { s with link := l })
    {row : Instr} {body : List Byte → State → Answer × State} (hbody : ∀ (p : List Byte) (s : State), P s → P (body p s).2)
    {s : State} (h : P s) : P (execute row body s) := by
  rcases execute_cases row body s with e | ⟨f, rest, _, _, _, _, e⟩ | ⟨f, rest, _, _, _, _, e⟩
  · rwa [e]
  · rw [e]; exact hlink s _ h
  · rw [e]; exact hlink _ _ (hbody f.payload _ (hlink s _ h))

/-- An event keeps what its meaning keeps. -/
theorem running_keeps {P : State → Prop} {f : State → State} {s t : State} (h : P s) (hf : P (f s))
    (ht : running f s = .next t) : P t := by
  unfold running at ht
  cases ht
  split
  · exact h
  · exact hf

/-- A request command keeps what its body keeps and a change of the link keeps. -/
theorem request_keeps {P : State → Prop} (hlink : ∀ (s : State) (l : Link), P s → P { s with link := l })
    {row : Instr} {body : List Byte → State → Answer × State} (hbody : ∀ (p : List Byte) (s : State), P s → P (body p s).2)
    {s t : State} (h : P s) (ht : request row body s = .next t) : P t :=
  running_keeps h (execute_keeps hlink hbody h) ht

/-- A request that names an outlet keeps what it keeps on every channel. -/
theorem atOutlet_keeps {P : State → Prop} {p : List Byte} {s : State} {f : Channel → Answer × State} (h : P s)
    (hf : ∀ c, P (f c).2) : P (atOutlet p s f).2 := by
  unfold atOutlet
  split
  · exact hf _
  · exact h

/-! ### The invariant and one record -/

/-- ENABLE of a pool. -/
def State.enables (s : State) (p : Pool) : Bool :=
  (s.pool p).settings.enable

/-- Every outlet's grant is right where the pools are enabled as `en` says. -/
def State.grantsUnder (s : State) (en : Pool → Bool) : Prop :=
  ∀ (c : Channel) (o : Outlet), s.outlet c = some o → o.grantsRight (en o.fixed.pool)

theorem grantsRight_iff (s : State) : s.grantsRight ↔
    s.grantsUnder s.enables ∧ ∀ p : Pool, s.enables p = false → (s.pool p).roundTimer = none := Iff.rfl

/-- A right grant is right in an enabled pool. -/
theorem Outlet.grantsRight.enabled {o : Outlet} {e : Bool} (h : o.grantsRight e) : o.grantsRight true :=
  ⟨fun hx => h.1 (hx.imp_right (by simp)), h.2⟩

theorem State.grantsUnder.setOutlet {s : State} {en : Pool → Bool} (h : s.grantsUnder en) (c : Channel) {x : Option Outlet}
    (hx : ∀ o, x = some o → o.grantsRight (en o.fixed.pool)) : (s.setOutlet c x).grantsUnder en := by
  intro d o ho
  rw [State.outlet_setOutlet] at ho
  split at ho
  · exact hx o ho
  · exact h d o ho

/-- The records the update meets come out right. -/
theorem State.grantsUnder.modifyOutlet {s : State} {en : Pool → Bool} (h : s.grantsUnder en) (c : Channel)
    {f : Outlet → Outlet} (hf : ∀ o, s.outlet c = some o → o.grantsRight (en o.fixed.pool) →
      (f o).grantsRight (en (f o).fixed.pool)) : (s.modifyOutlet c f).grantsUnder en := by
  refine h.setOutlet c fun o' ho' => ?_
  obtain ⟨o, ho, rfl⟩ := Option.map_eq_some_iff.1 ho'
  exact hf o ho (h c o ho)

/-- The outlet records and the pool records carry the invariant. -/
theorem State.grantsRight.congr {s t : State} (h : s.grantsRight) (ho : t.outlets = s.outlets) (hp : t.pools = s.pools) :
    t.grantsRight := by
  have hpool : t.pool = s.pool := by
    funext p
    rcases p with _ | _ | _ <;> simp [State.pool, hp]
  obtain ⟨ho', hp'⟩ := h
  refine ⟨fun c o hc => ?_, fun p => ?_⟩
  · rw [hpool]
    exact ho' c o (by simpa [State.outlet, ho] using hc)
  · rw [hpool]
    exact hp' p

theorem State.grantsRight.setOutlet {s : State} (h : s.grantsRight) (c : Channel) {x : Option Outlet}
    (hx : ∀ o, x = some o → o.grantsRight (s.enables o.fixed.pool)) : (s.setOutlet c x).grantsRight :=
  ⟨State.grantsUnder.setOutlet (en := s.enables) h.1 c hx, h.2⟩

theorem State.grantsRight.modifyOutlet {s : State} (h : s.grantsRight) (c : Channel) {f : Outlet → Outlet}
    (hf : ∀ o, s.outlet c = some o → o.grantsRight (s.enables o.fixed.pool) →
      (f o).grantsRight (s.enables (f o).fixed.pool)) : (s.modifyOutlet c f).grantsRight :=
  ⟨State.grantsUnder.modifyOutlet (en := s.enables) h.1 c hf, h.2⟩

/-- A pool record that keeps ENABLE, and whose round timer stands still in a disabled pool. -/
theorem State.grantsRight.setPool {s : State} (h : s.grantsRight) (p : Pool) {r : PoolRecord}
    (he : r.settings.enable = s.enables p) (ht : s.enables p = false → r.roundTimer = none) : (s.setPool p r).grantsRight := by
  have hen : (s.setPool p r).enables = s.enables := by
    funext q
    unfold State.enables
    rw [State.pool_setPool]
    split
    · next e => subst e; exact he
    · rfl
  refine (grantsRight_iff _).2 ⟨?_, fun q hq => ?_⟩
  · rw [hen]
    exact fun c o ho => h.1 c o (by simpa using ho)
  · rw [hen] at hq
    rw [State.pool_setPool]
    split
    · next e => subst e; exact ht hq
    · exact h.2 q hq

/-! ### The duty steps and the Drive Unit -/

theorem keptByDrive_grantsRight : KeptByDrive State.grantsRight where
  slot _ _ _ _ _ h := h.congr rfl rfl
  claim _ _ _ h := h.congr rfl rfl
  raise _ _ h := h.congr (by simp) (by simp)
  position _ _ _ _ _ h := h.congr rfl rfl
  queue _ _ _ h := h.congr rfl rfl
  report s c o o' ho hr h := by
    obtain ⟨hfixed, _, _, _, _, _, hright⟩ := hr
    refine h.setOutlet c fun x hx => ?_
    cases hx
    rw [hfixed]
    exact hright _ (h.1 c o ho)

theorem State.grantsRight.raise {s : State} (h : s.grantsRight) (k : NoticeKind) : (raise k s).grantsRight :=
  keptByDrive_grantsRight.raise s k h

/-- A target of any size, for a property that no position record bears on. -/
theorem KeptByDrive.giveTarget_any {P : State → Prop} (h : KeptByDrive P)
    (hpos : ∀ (s : State) (c : Channel) (p : Position), P s → P (s.setPosition c p)) (c : Channel) (t : Nat) {s : State}
    (hp : P s) : P (Machine.giveTarget c t s) := by
  have h₁ : P (s.modifyPosition c fun p => { p with target := some t }) := hpos s c _ hp
  unfold Machine.giveTarget
  simp only
  split
  · split
    · exact h₁
    · exact h.retarget _ c h₁
  · split
    · exact h₁
    · exact h.applyNeed (fun _ => h.runArbiter) c h₁

theorem giveTarget_keeps_grantsRight (c : Channel) (t : Nat) {s : State} (h : s.grantsRight) :
    (giveTarget c t s).grantsRight :=
  keptByDrive_grantsRight.giveTarget_any (fun _ _ _ h => h.congr rfl rfl) c t h

theorem requestHoming_keeps_grantsRight (c : Channel) {s : State} (h : s.grantsRight) : (requestHoming c s).grantsRight :=
  keptByDrive_grantsRight.requestHoming c h

/-! ### The requests of the Outlet Table -/

/-- GRANT 0 is right outside the eligible states but LOCKED, whatever ASSUMED_DRAW is. -/
theorem Outlet.grantsRight_of_ineligible {o : Outlet} (e : Bool) (hg : o.grant = 0) (he : o.state.eligible = false)
    (hl : o.state ≠ .locked) : o.grantsRight e :=
  ⟨fun _ => hg, fun hx => absurd hx (by simp [he, hl])⟩

/-- GRANT 0 and ASSUMED_DRAW 0 are right in every state. -/
theorem Outlet.grantsRight_of_zero {o : Outlet} (e : Bool) (hg : o.grant = 0) (ha : o.assumedDraw = 0) : o.grantsRight e :=
  ⟨fun _ => hg, fun _ => ha⟩

theorem initNeighbours_keeps_grantsRight (c : Channel) (n : Nat) {s : State} (h : s.grantsRight) :
    (initNeighbours c n s).grantsRight :=
  h.congr rfl rfl

theorem createOutlet_keeps_grantsRight (c : Channel) (fx : FixedPart) (prof : Profile) {s : State} (h : s.grantsRight) :
    (createOutlet c fx prof s).grantsRight := by
  have made : ∀ st : OutletState,
      (initNeighbours c prof.tolerance (s.setOutlet c (some (newOutlet fx prof st)))).grantsRight := fun st =>
    initNeighbours_keeps_grantsRight c _ (h.setOutlet c fun o ho => by
      cases ho
      exact Outlet.grantsRight_of_zero _ rfl rfl)
  unfold createOutlet
  split
  · exact made .held
  · exact requestHoming_keeps_grantsRight c (made .homing)

theorem writeOutlet_keeps_grantsRight (c : Channel) (rawF : FixedPart) (rawP : Profile) {s : State} (h : s.grantsRight) :
    (writeOutlet c rawF rawP s).2.grantsRight := by
  unfold writeOutlet
  simp only
  split
  · exact createOutlet_keeps_grantsRight c _ _ h
  · next o ho =>
    split
    · exact h
    · refine initNeighbours_keeps_grantsRight c _ (h.setOutlet c fun o' ho' => ?_)
      cases ho'
      exact ⟨fun _ => rfl, (h.1 c o ho).2⟩

theorem outletSet_keeps_grantsRight (p : List Byte) (s : State) (h : s.grantsRight) : (outletSet p s).2.grantsRight := by
  refine atOutlet_keeps h fun c => ?_
  split
  · simp only
    split
    · exact writeOutlet_keeps_grantsRight c _ _ h
    · exact h
  · exact h

theorem outletDrop_keeps_grantsRight (p : List Byte) (s : State) (h : s.grantsRight) : (outletDrop p s).2.grantsRight := by
  refine atOutlet_keeps h fun c => ?_
  split
  · exact h
  · have h₁ : ((s.setOutlet c none).setDemand c .absent).grantsRight := (h.setOutlet c (by simp)).congr rfl rfl
    exact keptByDrive_grantsRight.stopChannel c h₁

/-- The write of a profile set leaves what the invariant speaks of. -/
theorem writeSet_grantsRight (set : ProfileBank) (x : Profile) (o : Outlet) (e : Bool) :
    (writeSet set x o).fixed = o.fixed ∧ ((writeSet set x o).grantsRight e ↔ o.grantsRight e) := by
  cases set <;> exact ⟨rfl, Iff.rfl⟩

theorem profileSet_keeps_grantsRight (p : List Byte) (s : State) (h : s.grantsRight) : (profileSet p s).2.grantsRight := by
  refine atOutlet_keeps h fun c => ?_
  split
  · split
    · exact h
    · next o ho =>
      simp only
      split
      · exact h
      · split
        · exact h
        · refine h.setOutlet c fun o' ho' => ?_
          cases ho'
          rw [(writeSet_grantsRight _ _ o true).1, (writeSet_grantsRight _ _ o _).2]
          exact h.1 c o ho
  · exact h

theorem lockOutlet_keeps_grantsRight (c : Channel) {s : State} (h : s.grantsRight) : (lockOutlet c s).grantsRight := by
  unfold lockOutlet
  split
  · exact h
  · split
    · refine giveTarget_keeps_grantsRight c 0 (h.setOutlet c fun o' ho' => ?_)
      cases ho'
      exact Outlet.grantsRight_of_zero _ rfl rfl
    · exact h

/-- A LOCKED outlet has GRANT 0 and ASSUMED_DRAW 0, as IDLE asks. -/
theorem unlockOutlet_keeps_grantsRight (c : Channel) {s : State} (h : s.grantsRight) : (unlockOutlet c s).grantsRight := by
  refine h.modifyOutlet c fun o _ ho => ?_
  split
  · next hl => exact Outlet.grantsRight_of_zero _ (ho.1 (.inl (by simp [hl, OutletState.eligible]))) (ho.2 (.inr hl))
  · exact ho

theorem applyBars_keeps_grantsRight (c : Channel) (old new : Bars) {s : State} (h : s.grantsRight) :
    (applyBars c old new s).grantsRight := by
  have h₁ : (if old.all = false ∧ new.all = true then lockOutlet c s
      else if old.all = true ∧ new.all = false then unlockOutlet c s else s).grantsRight := by
    split
    · exact lockOutlet_keeps_grantsRight c h
    · split
      · exact unlockOutlet_keeps_grantsRight c h
      · exact h
  unfold applyBars
  simp only
  split
  · exact keptByDrive_grantsRight.failStepsOn c _ h₁
  · exact h₁

theorem barSet_keeps_grantsRight (p : List Byte) (s : State) (h : s.grantsRight) : (barSet p s).2.grantsRight := by
  refine atOutlet_keeps h fun c => ?_
  split
  · exact h
  · split
    · exact h
    · next o ho =>
      refine applyBars_keeps_grantsRight c _ _ (h.setOutlet c fun o' ho' => ?_)
      cases ho'
      exact h.1 c o ho

theorem rehome_keeps_grantsRight (p : List Byte) (s : State) (h : s.grantsRight) : (rehome p s).2.grantsRight := by
  refine atOutlet_keeps h fun c => ?_
  split
  · refine requestHoming_keeps_grantsRight c (h.modifyOutlet c fun o _ _ => ?_)
    exact Outlet.grantsRight_of_ineligible _ rfl rfl (by simp [leaveEligible])
  · exact h

/-- An outlet that is not eligible keeps its GRANT 0 in another state that is neither eligible nor LOCKED. -/
theorem State.grantsRight.setState {s : State} (h : s.grantsRight) (c : Channel) {o : Outlet} (ho : s.outlet c = some o)
    (hs : o.state.eligible = false) {st : OutletState} (he : st.eligible = false) (hl : st ≠ .locked) :
    (s.setOutlet c (some { o with state := st })).grantsRight :=
  h.setOutlet c fun o' ho' => by
    cases ho'
    exact Outlet.grantsRight_of_ineligible _ ((h.1 c o ho).1 (.inl hs)) he hl

theorem faultClear_keeps_grantsRight (p : List Byte) (s : State) (h : s.grantsRight) : (faultClear p s).2.grantsRight := by
  refine atOutlet_keeps h fun c => ?_
  split
  · exact h
  · next o ho =>
    split
    · next hf =>
      exact requestHoming_keeps_grantsRight c (h.setState c ho (by simp [hf.1, OutletState.eligible]) rfl (by simp))
    · exact h

/-- A warm-up that ends stays within the eligible states. -/
theorem endWarmUp_grantsRight {o : Outlet} {e : Bool} (hw : o.state = .warming) (h : o.grantsRight e) :
    (endWarmUp o).grantsRight e := by
  have he : o.state.eligible = true := by rw [hw]; rfl
  refine ⟨fun hx => h.1 (.inr ?_), fun _ => h.2 (.inl he)⟩
  simpa [endWarmUp, OutletState.eligible] using hx

theorem warmTimerExpiry_keeps_grantsRight (c : Channel) {s : State} (h : s.grantsRight) :
    (warmTimerExpiry c s).grantsRight := by
  refine h.modifyOutlet c fun o _ ho => ?_
  split
  · next hw => exact endWarmUp_grantsRight hw.1 ho
  · exact ho

theorem sampleWarmUp_keeps_grantsRight (c : Channel) (r : Int) {s : State} (h : s.grantsRight) :
    (sampleWarmUp c r s).grantsRight := by
  refine h.modifyOutlet c fun o _ ho => ?_
  split
  · next hw => exact endWarmUp_grantsRight hw.1 ho
  · exact ho

/-! ### Demand Intake and the Curtailment Monitor -/

theorem demandItem_keeps_grantsRight (addr kw : Nat) {s : State} (h : s.grantsRight) :
    (demandItem addr kw s).2.grantsRight := by
  unfold demandItem
  split
  · exact h
  · split
    · exact h.congr rfl rfl
    · exact h
    · exact h

theorem demandItems_keeps_grantsRight (n : Nat) (p : List Byte) {s : State} (h : s.grantsRight) :
    (demandItems n p s).2.grantsRight := by
  induction n generalizing p s with
  | zero => exact h
  | succ n ih => exact ih _ (demandItem_keeps_grantsRight _ _ h)

theorem stalenessTimerExpiry_keeps_grantsRight (c : Channel) {s : State} (h : s.grantsRight) :
    (stalenessTimerExpiry c s).grantsRight := by
  unfold stalenessTimerExpiry
  split
  · exact h.congr (by simp) (by simp)
  all_goals exact h

@[simp] theorem writeLog_outlets (x : LogEntry) (s : State) : (writeLog x s).outlets = s.outlets := by rw [writeLog_eq]

@[simp] theorem writeLog_pools (x : LogEntry) (s : State) : (writeLog x s).pools = s.pools := by rw [writeLog_eq]

@[simp] theorem takeResult_outlets (r : RoundResult) (s : State) : (takeResult r s).outlets = s.outlets := by
  unfold takeResult
  simp only
  split <;> split <;> simp

@[simp] theorem takeResult_pools (r : RoundResult) (s : State) : (takeResult r s).pools = s.pools := by
  unfold takeResult
  simp only
  split <;> split <;> simp

/-! ### The allocation round -/

/-- A class step of an allocation leaves each participant's channel. -/
theorem grantClass_channels (cls : ServiceClass) (g : Part → Nat) (ps : List Part) :
    (grantClass cls g ps).map Part.ch = ps.map Part.ch := by
  unfold grantClass
  rw [List.map_map]
  refine List.map_congr_left fun q _ => ?_
  simp only [Function.comp]
  split <;> rfl

theorem mergeGrants_channels (filled ps : List Part) : (mergeGrants filled ps).map Part.ch = ps.map Part.ch := by
  unfold mergeGrants
  rw [List.map_map]
  refine List.map_congr_left fun q _ => ?_
  simp only [Function.comp]
  cases hf : filled.find? fun x => decide (x.ch = q.ch) with
  | none => rfl
  | some x => simpa using List.find?_some hf

theorem stageAClass_channels (cls : ServiceClass) (x : Nat × List Part) :
    (stageAClass cls x).2.map Part.ch = x.2.map Part.ch := by
  unfold stageAClass
  simp only
  split
  · exact grantClass_channels ..
  · exact grantClass_channels ..

theorem stageBClass_channels (cls : ServiceClass) (x : Nat × List Part) :
    (stageBClass cls x).2.map Part.ch = x.2.map Part.ch := by
  unfold stageBClass
  split
  · rfl
  · simp only
    split
    · exact grantClass_channels ..
    · exact mergeGrants_channels ..

/-- An allocation grants to the participants, in their order. -/
theorem allocate_channels (c : Nat) (ps : List Part) : (allocate c ps).map Part.ch = ps.map Part.ch := by
  simp [allocate, stageA, stageB, classOrder, stageAClass_channels, stageBClass_channels]

/-- The outlet of the channel is an eligible one of the pool. -/
def State.eligibleIn (s : State) (p : Pool) (c : Channel) : Prop :=
  ∃ o : Outlet, s.outlet c = some o ∧ o.fixed.pool = p ∧ o.state.eligible = true

theorem participants_eligible {p : Pool} {s : State} {q : Part} (h : q ∈ participants p s) : s.eligibleIn p q.ch := by
  unfold participants at h
  obtain ⟨c, _, hc⟩ := List.mem_filterMap.1 h
  cases ho : s.outlet c with
  | none => simp [ho] at hc
  | some o =>
    simp only [ho, Option.ite_none_right_eq_some, Option.some.injEq] at hc
    obtain ⟨⟨hp, he⟩, rfl⟩ := hc
    exact ⟨o, ho, hp, he⟩

theorem roundGrants_eligible {p : Pool} {s : State} {q : Part} (h : q ∈ roundGrants p s) : s.eligibleIn p q.ch := by
  have hq : q.ch ∈ (roundGrants p s).map Part.ch := List.mem_map_of_mem h
  rw [roundGrants, allocate_channels] at hq
  obtain ⟨q', hq', e⟩ := List.mem_map.1 hq
  exact e ▸ participants_eligible hq'

/-- A grant leaves the fixed part, ASSUMED_DRAW and eligibility. -/
theorem afterGrant_frame (g w : Nat) (o : Outlet) :
    (afterGrant g w o).fixed = o.fixed ∧ (afterGrant g w o).assumedDraw = o.assumedDraw ∧
    (o.state.eligible = true → (afterGrant g w o).state.eligible = true) := by
  unfold afterGrant
  split
  · exact ⟨rfl, rfl, fun _ => rfl⟩
  · split
    · split <;> exact ⟨rfl, rfl, fun _ => rfl⟩
    · split
      · exact ⟨rfl, rfl, id⟩
      · exact ⟨rfl, rfl, fun _ => rfl⟩
    all_goals exact ⟨rfl, rfl, id⟩

theorem grantOutlet_eligibleIn {p : Pool} {s : State} (q : Part) {c : Channel} (h : s.eligibleIn p c) :
    (grantOutlet s q).eligibleIn p c := by
  obtain ⟨o, ho, hp, he⟩ := h
  by_cases hc : q.ch = c
  · subst hc
    obtain ⟨hfixed, _, helig⟩ := afterGrant_frame q.g (s.activeProfile o).warmKw o
    refine ⟨_, by rw [grantOutlet, State.outlet_modifyOutlet, if_pos rfl, ho]; rfl, ?_, ?_⟩
    · simpa [hfixed] using hp
    · exact helig he
  · exact ⟨o, by rw [grantOutlet, State.outlet_modifyOutlet, if_neg hc, ho], hp, he⟩

/-- A grant to an eligible outlet of an enabled pool may take any value (R5). -/
theorem grantOutlet_keeps_grantsRight {p : Pool} {s : State} {q : Part} (hen : s.enables p = true)
    (hq : s.eligibleIn p q.ch) (h : s.grantsRight) : (grantOutlet s q).grantsRight := by
  obtain ⟨o, ho, hp, he⟩ := hq
  refine h.modifyOutlet q.ch fun o' ho' hright => ?_
  obtain rfl : o = o' := by simpa [ho] using ho'
  obtain ⟨hfixed, hdraw, helig⟩ := afterGrant_frame q.g (s.activeProfile o).warmKw o
  refine ⟨fun hx => ?_, fun _ => ?_⟩
  · simp [hfixed, hp, hen, helig he] at hx
  · simpa [hdraw] using hright.2 (.inl he)

theorem targetOutlet_keeps_grantsRight (q : Part) {s : State} (h : s.grantsRight) : (targetOutlet s q).grantsRight := by
  unfold targetOutlet
  split
  · split
    · exact giveTarget_keeps_grantsRight _ _ h
    · exact h
  · exact h

theorem targetStage_keeps_grantsRight {p : Pool} {s : State} {ps : List Part} (hen : s.enables p = true)
    (hps : ∀ q ∈ ps, s.eligibleIn p q.ch) (h : s.grantsRight) : (targetStage p ps s).grantsRight := by
  obtain ⟨h₁, hen₁, -⟩ : (ps.foldl grantOutlet s).grantsRight ∧ (ps.foldl grantOutlet s).enables p = true ∧
      ∀ q ∈ ps, (ps.foldl grantOutlet s).eligibleIn p q.ch := by
    refine List.foldlRecOn (motive := fun u : State => u.grantsRight ∧ u.enables p = true ∧ ∀ q ∈ ps, u.eligibleIn p q.ch)
      ps grantOutlet ⟨h, hen, hps⟩ fun u ⟨hu, hue, hups⟩ q hq => ?_
    exact ⟨grantOutlet_keeps_grantsRight hue (hups q hq) hu, hue, fun q' hq' => grantOutlet_eligibleIn q (hups q' hq')⟩
  have h₂ := h₁.setPool p (r := { (ps.foldl grantOutlet s).pool p with totals := roundTotals ps }) rfl
    fun hd => by simp [hen₁] at hd
  exact List.foldlRecOn ps targetOutlet h₂ fun u hu q _ => targetOutlet_keeps_grantsRight q hu

theorem handOver_keeps_grantsRight (p : Pool) (ps : List Part) {s : State} (h : s.grantsRight) :
    (handOver p ps s).grantsRight :=
  List.foldlRecOn ps _ h fun _ hu _ _ => hu.congr (by simp) (by simp)

theorem feederStage_keeps_grantsRight (p : Pool) (ps : List Part) (a : Nat) {s : State} (h : s.grantsRight) :
    (feederStage p ps a s).grantsRight := by
  unfold feederStage
  split
  · exact h
  · split
    · exact h
    · exact h.modifyOutlet _ fun o _ ho => ho

/-- What comes before the grants of a round keeps the invariant, ENABLE and the outlet records. -/
theorem roundStart_keeps {p : Pool} {s : State} (hen : s.enables p = true) (h : s.grantsRight) :
    (capacityStage p (swapStage p (startRound p s))).grantsRight ∧
    (capacityStage p (swapStage p (startRound p s))).enables p = true := by
  have write : ∀ (u : State) (r : PoolRecord), u.grantsRight ∧ u.enables p = true → r.settings = (u.pool p).settings →
      (u.setPool p r).grantsRight ∧ (u.setPool p r).enables p = true := by
    intro u r ⟨hu, hue⟩ hr
    refine ⟨hu.setPool p (by rw [hr]; rfl) (fun hd => by simp [hue] at hd), ?_⟩
    rw [State.enables, State.pool_setPool, if_pos rfl, hr]
    exact hue
  have h₁ : (startRound p s).grantsRight ∧ (startRound p s).enables p = true := write s _ ⟨h, hen⟩ rfl
  have h₂ : (swapStage p (startRound p s)).grantsRight ∧ (swapStage p (startRound p s)).enables p = true := by
    unfold swapStage
    simp only
    split
    · obtain ⟨hr, he⟩ := write (startRound p s) { (startRound p s).pool p with
        activeBank := ((startRound p s).pool p).activeBank.other, swapPending := false } h₁ rfl
      exact ⟨hr.congr (by simp) (by simp), by simpa [State.enables] using he⟩
    · exact h₁
  exact write _ _ h₂ rfl

/-- A round runs in an enabled pool alone (R32, R33), and there it keeps the invariant. -/
theorem runRound_keeps_grantsRight {p : Pool} {s : State} (hen : s.enables p = true) (h : s.grantsRight) :
    (runRound p s).grantsRight := by
  obtain ⟨h₁, hen₁⟩ := roundStart_keeps hen h
  exact feederStage_keeps_grantsRight _ _ _ (handOver_keeps_grantsRight _ _
    (targetStage_keeps_grantsRight hen₁ (fun _ hq => roundGrants_eligible hq) h₁))

/-- A due round timer is that of an enabled pool. -/
theorem roundTimerExpiry_keeps_grantsRight (p : Pool) {s : State} (h : s.grantsRight) :
    (roundTimerExpiry p s).grantsRight := by
  unfold roundTimerExpiry
  split
  · next hdue =>
    cases hen : s.enables p with
    | false => simp [h.2 p hen, timerDue] at hdue
    | true => exact runRound_keeps_grantsRight hen h
  · exact h

theorem rebalance_keeps_grantsRight (p : List Byte) (s : State) (h : s.grantsRight) : (rebalance p s).2.grantsRight := by
  unfold rebalance
  split
  · exact h
  · split
    · next hen => exact runRound_keeps_grantsRight hen h
    · exact h

/-! ### POOL-SET and the disable of a pool -/

/-- The same change of every listed outlet, each listed once. -/
theorem foldl_modifyOutlet_outlet (f : Outlet → Outlet) {cs : List Channel} (hn : cs.Nodup) (s : State) (d : Channel) :
    (cs.foldl (fun s c => s.modifyOutlet c f) s).outlet d = if d ∈ cs then (s.outlet d).map f else s.outlet d := by
  induction cs generalizing s with
  | nil => simp
  | cons c cs ih =>
    obtain ⟨hc, hn⟩ := List.nodup_cons.1 hn
    rw [List.foldl_cons, ih hn, State.outlet_modifyOutlet]
    by_cases hd : c = d
    · subst hd; simp [hc]
    · simp [hd, Ne.symm hd]

@[simp] theorem foldl_modifyOutlet_pools (f : Outlet → Outlet) (cs : List Channel) (s : State) :
    (cs.foldl (fun s c => s.modifyOutlet c f) s).pools = s.pools :=
  List.foldlRecOn (motive := fun u : State => u.pools = s.pools) cs _ rfl fun _ hu _ _ => hu

theorem State.pool_congr {s t : State} (h : t.pools = s.pools) (p : Pool) : t.pool p = s.pool p := by
  rcases p with _ | _ | _ <;> simp [State.pool, h]

/-- A disable leaves an outlet of the pool with GRANT 0 and its ASSUMED_DRAW (R31). -/
theorem disableOutlet_grantsRight {o : Outlet} {e : Bool} (h : o.grantsRight e) :
    (disableOutlet o).fixed = o.fixed ∧ (disableOutlet o).grantsRight false := by
  unfold disableOutlet
  split
  · next he => exact ⟨rfl, fun _ => rfl, fun _ => h.2 (.inl he)⟩
  · exact ⟨rfl, fun _ => rfl, h.2⟩

/-- The outlet records a disable of a pool leaves (R31): its own outlets, and the demand of its feeder. -/
def disabledOutlets (p : Pool) (s : State) : State :=
  let s₁ := (indices 48).foldl (fun s c =>
    s.modifyOutlet c fun o => if o.fixed.pool = p then disableOutlet o else o) s
  match p with
  | .steam => s₁
  | .hw h =>
    match (s₁.hwPart h).feeder with
    | some c => s₁.modifyOutlet c fun o => { o with feederDemand := 0 }
    | none => s₁

theorem disableRecords_eq (p : Pool) (s : State) :
    disableRecords p s = (disabledOutlets p s).setPool p { (disabledOutlets p s).pool p with
      roundTimer := none, totals := { sumE := 0, sumGrant := 0, eligibleCount := 0, curtailedCount := 0 } } := by
  unfold disableRecords disabledOutlets
  generalize (indices 48).foldl (fun s c =>
    s.modifyOutlet c fun o => if o.fixed.pool = p then disableOutlet o else o) s = s₁
  cases p with
  | steam => rfl
  | hw h => rfl

theorem disabledOutlets_pools (p : Pool) (s : State) : (disabledOutlets p s).pools = s.pools := by
  unfold disabledOutlets
  simp only
  split
  · exact foldl_modifyOutlet_pools ..
  · split <;> simp

/-- The outlets of a disabled pool come out right with that pool disabled. -/
theorem disabledOutlets_grantsUnder (p : Pool) {s : State} {en : Pool → Bool} (h : s.grantsUnder en) :
    (disabledOutlets p s).grantsUnder (fun q => if p = q then false else en q) := by
  have h₁ : ((indices 48).foldl (fun s c =>
      s.modifyOutlet c fun o => if o.fixed.pool = p then disableOutlet o else o) s).grantsUnder
        (fun q => if p = q then false else en q) := by
    intro c o' ho'
    rw [foldl_modifyOutlet_outlet _ (indices_nodup 48), if_pos (mem_indices c)] at ho'
    obtain ⟨o, ho, rfl⟩ := Option.map_eq_some_iff.1 ho'
    by_cases hp : o.fixed.pool = p
    · obtain ⟨hfixed, hright⟩ := disableOutlet_grantsRight (h c o ho)
      simpa [hp, hfixed] using hright
    · simpa [hp, Ne.symm hp] using h c o ho
  unfold disabledOutlets
  simp only
  split
  · exact h₁
  · split
    · exact h₁.modifyOutlet _ fun o _ ho => ho
    · exact h₁

/-- The pools of a disable: the one disabled loses its timer and its totals, and keeps its settings. -/
theorem disableRecords_pool (p q : Pool) (s : State) :
    (disableRecords p s).pool q =
      if p = q then { s.pool p with
        roundTimer := none, totals := { sumE := 0, sumGrant := 0, eligibleCount := 0, curtailedCount := 0 } }
      else s.pool q := by
  have hpool := State.pool_congr (disabledOutlets_pools p s)
  rw [disableRecords_eq, State.pool_setPool, hpool, hpool]

theorem disableRecords_grantsUnder {p : Pool} {s : State} {en : Pool → Bool} (h : s.grantsUnder en) :
    (disableRecords p s).grantsUnder (fun q => if p = q then false else en q) := by
  rw [disableRecords_eq]
  exact fun c o ho => disabledOutlets_grantsUnder p h c o (by simpa using ho)

/-- Target 0 for the outlets a disable found eligible. -/
theorem disablePool_grantsRight {p : Pool} {s : State} (h : (disableRecords p s).grantsRight) :
    (disablePool p s).grantsRight :=
  List.foldlRecOn (motive := State.grantsRight) (eligibleOf p s) _ h fun u hu c _ => by
    split
    · exact giveTarget_keeps_grantsRight c 0 hu
    · exact hu

/-- The change of ENABLE that a POOL-SET makes (R30, R31): `s₁` holds the stored settings, and its grants are still those of the
settings before. -/
theorem applyEnable_grantsRight {p : Pool} {s s₁ : State} (h : s.grantsRight) (hu : s₁.grantsUnder s.enables)
    (hother : ∀ q, p ≠ q → s₁.pool q = s.pool q) (htimer : (s₁.pool p).roundTimer = (s.pool p).roundTimer) :
    (applyEnable p (s.enables p) (s₁.enables p) s₁).grantsRight := by
  have htimers : ∀ q, s.enables q = false → (s₁.pool q).roundTimer = none := by
    intro q hq
    by_cases hp : p = q
    · subst hp; rw [htimer]; exact h.2 p hq
    · rw [hother q hp]; exact h.2 q hq
  have hen : ∀ q, p ≠ q → s₁.enables q = s.enables q := fun q hq => by simp [State.enables, hother q hq]
  have same : s₁.enables p = s.enables p → s₁.grantsRight := by
    intro hp
    have e : s₁.enables = s.enables := by
      funext q
      by_cases hq : p = q
      · exact hq ▸ hp
      · exact hen q hq
    exact (grantsRight_iff s₁).2 ⟨e ▸ hu, e ▸ htimers⟩
  cases hwas : s.enables p <;> cases his : s₁.enables p <;> unfold applyEnable <;> simp only
  · exact same (by rw [hwas, his])
  · refine runRound_keeps_grantsRight his ((grantsRight_iff s₁).2 ⟨fun c o ho => ?_, fun q hq => ?_⟩)
    · by_cases hp : p = o.fixed.pool
      · rw [← hp, his]; exact (hu c o ho).enabled
      · rw [hen _ hp]; exact hu c o ho
    · exact htimers q (by
        rw [← hen q (fun e => by rw [← e, his] at hq; exact absurd hq (by simp))]
        exact hq)
  · have e : (disableRecords p s₁).enables = fun q => if p = q then false else s.enables q := by
      funext q
      unfold State.enables
      rw [disableRecords_pool]
      split
      · exact his
      · next hp => exact hen q hp
    refine disablePool_grantsRight ((grantsRight_iff _).2 ⟨e ▸ disableRecords_grantsUnder hu, fun q hq => ?_⟩)
    rw [disableRecords_pool]
    split
    · rfl
    · next hp => exact htimers q (by simpa [e, hp] using hq)
  · exact same (by rw [hwas, his])

/-- A designation writes the feeder fields alone (R29). -/
theorem designate_grantsUnder (h : HwPool) (old new : Option Channel) {s : State} {en : Pool → Bool}
    (hs : s.grantsUnder en) : (designate h old new s).grantsUnder en := by
  have h₁ : (match old with
      | some c => s.modifyOutlet c releaseFeeder
      | none => s).grantsUnder en := by
    split
    · exact hs.modifyOutlet _ fun o _ ho => ho
    · exact hs
  unfold designate
  simp only
  split
  · exact hs
  · split
    · exact h₁.modifyOutlet _ fun o _ ho => ho
    · exact h₁

@[simp] theorem designate_pools (h : HwPool) (old new : Option Channel) (s : State) :
    (designate h old new s).pools = s.pools := by
  cases old <;> cases new <;> simp only [designate] <;> split <;> rfl

theorem poolSetSteam_keeps_grantsRight (p : List Byte) (enable : Bool) {s : State} (h : s.grantsRight) :
    (poolSetSteam p enable s).2.grantsRight := by
  unfold poolSetSteam
  simp only
  split
  · refine applyEnable_grantsRight (p := .steam) (s₁ := (s.setPool .steam { s.pool .steam with
      settings := clampSettings (readSettings p enable) }).setSteamPart
        { s.pools.steamPart with settings := clampSteam (readSteam p) }) h ?_ ?_ rfl
    · exact fun c o ho => h.1 c o (by simpa using ho)
    · intro q hq
      rw [State.setSteamPart_pool, State.pool_setPool, if_neg hq]
  · exact h

theorem poolSetHw_keeps_grantsRight (hw : HwPool) (p : List Byte) (enable : Bool) {s : State} (h : s.grantsRight) :
    (poolSetHw hw p enable s).2.grantsRight := by
  unfold poolSetHw
  split
  · exact h
  · next feeder _ =>
    simp only
    have hpool : ∀ q, (designate hw (s.hwPart hw).feeder feeder
        ((s.setPool (.hw hw) { s.pool (.hw hw) with settings := clampSettings (readSettings p enable) }).setHwPart hw
          (clampHw (readHw p feeder)))).pool q =
        if .hw hw = q then { s.pool (.hw hw) with settings := clampSettings (readSettings p enable) } else s.pool q := by
      intro q
      rw [State.pool_congr (designate_pools ..), State.setHwPart_pool, State.pool_setPool]
    have happly := applyEnable_grantsRight (p := .hw hw) h
      (designate_grantsUnder hw (s.hwPart hw).feeder feeder (s := ((s.setPool (.hw hw) { s.pool (.hw hw) with
        settings := clampSettings (readSettings p enable) }).setHwPart hw (clampHw (readHw p feeder))))
        (fun c o ho => h.1 c o (by simpa using ho)))
      (fun q hq => by rw [hpool, if_neg hq]) (by rw [hpool, if_pos rfl])
    rw [State.enables, State.enables, hpool, if_pos rfl] at happly
    exact happly

theorem poolSet_keeps_grantsRight (p : List Byte) (s : State) (h : s.grantsRight) : (poolSet p s).2.grantsRight := by
  unfold poolSet
  split
  · exact poolSetSteam_keeps_grantsRight p _ h
  · exact poolSetHw_keeps_grantsRight _ p _ h
  · exact h
  · exact h

theorem profileSwap_keeps_grantsRight (p : List Byte) (s : State) (h : s.grantsRight) :
    (profileSwap p s).2.grantsRight := by
  unfold profileSwap
  split
  · exact h
  · simp only
    split
    · exact h
    · exact h.setPool _ rfl (h.2 _)

theorem setSteamPart_keeps_grantsRight (x : SteamPart) {s : State} (h : s.grantsRight) : (s.setSteamPart x).grantsRight :=
  ⟨fun c o ho => by simpa using h.1 c o ho, fun p => by simpa using h.2 p⟩

theorem capacityStalenessExpiry_keeps_grantsRight {s : State} (h : s.grantsRight) :
    (capacityStalenessExpiry s).grantsRight := by
  unfold capacityStalenessExpiry
  simp only
  split
  · exact (setSteamPart_keeps_grantsRight _ h).raise _
  · exact h

/-! ### Hand-off, samples, ticks and programs -/

theorem holdOutlet_keeps_grantsRight (c : Channel) {s : State} (h : s.grantsRight) : (holdOutlet s c).grantsRight := by
  have left : ∀ o, (s.setOutlet c (some (leaveEligible .held o))).grantsRight := fun o => h.setOutlet c fun o' ho' => by
    cases ho'
    exact Outlet.grantsRight_of_ineligible _ rfl rfl (by simp [leaveEligible])
  have keep := fun (s : State) => keptByDrive_grantsRight.failStepsOn (s := s) c .handoff
  unfold holdOutlet
  split
  · exact h
  · next o ho =>
    split
    · exact keep _ (left o)
    · exact keep _ (left o)
    · exact keep _ (left o)
    · next hs => exact keep _ (h.setState c ho (by rw [hs]; rfl) rfl (by simp))
    · next hs => exact keep _ (h.setState c ho (by rw [hs]; rfl) rfl (by simp))
    · exact h
    · exact h

theorem bhoAssertion_keeps_grantsRight (b : BankId) {s : State} (h : s.grantsRight) : (bhoAssertion b s).grantsRight := by
  have h₁ : (setBho b true s).grantsRight := h.congr rfl rfl
  unfold bhoAssertion
  simp only
  split
  · exact h
  · split
    · exact h₁
    · have h₂ : ((bankChannels b).foldl releaseDrive (setBho b true s)).grantsRight :=
        List.foldlRecOn _ _ h₁ fun u hu c _ => (keptByDrive_grantsRight.stopChannel c hu).congr rfl rfl
      have h₃ := List.foldlRecOn (motive := State.grantsRight) (bankChannels b) holdOutlet h₂
        fun u hu c _ => holdOutlet_keeps_grantsRight c hu
      exact State.grantsRight.raise (s := setHandedOff b true _) (h₃.congr rfl rfl) .handoff

theorem rehomeHeld_keeps_grantsRight (c : Channel) {s : State} (h : s.grantsRight) : (rehomeHeld s c).grantsRight := by
  unfold rehomeHeld
  split
  · exact h
  · next o ho =>
    split
    · next hs => exact requestHoming_keeps_grantsRight c (h.setState c ho (by rw [hs]; rfl) rfl (by simp))
    · exact h

theorem bhoRelease_keeps_grantsRight (b : BankId) {s : State} (h : s.grantsRight) : (bhoRelease b s).grantsRight := by
  have h₁ : (setBho b false s).grantsRight := h.congr rfl rfl
  unfold bhoRelease
  simp only
  split
  · split
    · exact h₁
    · have h₂ : ((bankChannels b).foldl rehomeHeld (setHandedOff b false (setBho b false s))).grantsRight :=
        List.foldlRecOn _ _ (h₁.congr rfl rfl) fun u hu c _ => rehomeHeld_keeps_grantsRight c hu
      exact h₂.raise _
  · exact h

theorem runDuty_keeps_grantsRight (ts : List DutyTask) {s : State} (h : s.grantsRight) : (runDuty ts s).grantsRight :=
  keptByDrive_grantsRight.runDuty ts h

theorem sampleStep_keeps_grantsRight (c : Channel) (r : Int) {s : State} (h : s.grantsRight) :
    (sampleStep c r s).grantsRight := by
  have slot : ∀ (i : SlotId) (x : ProgSlot), (s.setSlot i x).grantsRight := fun _ _ => h.congr rfl rfl
  have reach : ∀ i st, (reachTemp i st s).grantsRight := by
    intro i st
    unfold reachTemp
    simp only
    split
    · exact runDuty_keeps_grantsRight _ (slot i _)
    · exact slot i _
  have dips : ∀ i st, (dip i st s).grantsRight := by
    intro i st
    unfold dip
    simp only
    split
    · exact runDuty_keeps_grantsRight _ (slot i _)
    · exact h.congr rfl rfl
  unfold sampleStep
  split
  · exact h
  · split
    · split
      · exact reach _ _
      · exact h
    · split
      · exact dips _ _
      · exact h
    · exact h
    · exact h

theorem sensorFailure_keeps_grantsRight (c : Channel) {s : State} (h : s.grantsRight) : (sensorFailure c s).grantsRight := by
  unfold sensorFailure
  split
  · exact h
  · split
    · exact runDuty_keeps_grantsRight _ h
    · exact runDuty_keeps_grantsRight _ h
    · exact h
    · exact h

theorem handSample_keeps_grantsRight (c : Channel) (valid : Bool) (r : Int) (before x : Sensor) {s : State}
    (h : s.grantsRight) : (handSample c valid r before x s).grantsRight := by
  unfold handSample
  split
  · exact sampleStep_keeps_grantsRight c r (sampleWarmUp_keeps_grantsRight c r h)
  · split
    · exact sensorFailure_keeps_grantsRight c h
    · exact h

theorem sampleEvent_keeps_grantsRight (i : InputId) (r : Int) {s : State} (h : s.grantsRight) :
    (sampleEvent i r s).grantsRight := by
  have h₁ : (if (sampleRecord (readingValid i r) r (s.sensor i)).faulted = (s.sensor i).faulted
      then s.setSensor i (sampleRecord (readingValid i r) r (s.sensor i))
      else raise .sensor (s.setSensor i (sampleRecord (readingValid i r) r (s.sensor i)))).grantsRight := by
    split
    · exact h.congr rfl rfl
    · exact h.congr (by simp) (by simp)
  unfold sampleEvent
  simp only
  split
  · exact handSample_keeps_grantsRight _ _ _ _ _ h₁
  · exact h₁

/-- The second timers: a warm timer is no part of the invariant, and a stopped round timer stays stopped. -/
theorem tickSeconds_keeps_grantsRight {s : State} (h : s.grantsRight) : (tickSeconds s).grantsRight := by
  have hpool : ∀ p, (tickSeconds s).pool p = tickPool (s.pool p) := by
    rintro (_ | _ | _) <;> rfl
  refine ⟨fun c o' ho' => ?_, fun p hp => ?_⟩
  · have hmap : (s.outlet c).map (fun o => { o with warmTimer := tickTimer 1 o.warmTimer }) = some o' := by
      rw [← ho', State.outlet, State.outlet, tickSeconds, Table.get_map, tickOutlet]
    obtain ⟨o, ho, rfl⟩ := Option.map_eq_some_iff.1 hmap
    rw [hpool]
    exact h.1 c o ho
  · rw [hpool] at hp ⊢
    simp [tickPool, tickTimer, h.2 p hp]

theorem beginPass_keeps_grantsRight (i : SlotId) (m : Nat) {s : State} (h : s.grantsRight) : (beginPass i m s).grantsRight :=
  keptByDrive_grantsRight.beginPass i m h

theorem clockTick_keeps_grantsRight {s : State} (h : s.grantsRight) : (clockTick s).grantsRight := by
  have h₁ : (tickSeconds (advanceMs (Config.msPerSecond - s.msPhase) s)).grantsRight :=
    tickSeconds_keeps_grantsRight (h.congr rfl rfl)
  unfold clockTick
  simp only
  split
  · exact List.foldlRecOn _ _ (h₁.congr rfl rfl) fun u hu i _ => beginPass_keeps_grantsRight i _ hu
  · exact h₁.congr rfl rfl

theorem startRun_keeps_grantsRight (i : SlotId) {s : State} (h : s.grantsRight) : (startRun i s).grantsRight := by
  unfold startRun
  split
  · exact beginPass_keeps_grantsRight i _ (h.congr rfl rfl)
  · exact h.congr rfl rfl

theorem progStart_keeps_grantsRight (p : List Byte) (s : State) (h : s.grantsRight) : (progStart p s).2.grantsRight := by
  unfold progStart
  split
  · exact h
  · split
    · exact h
    · split
      · exact h
      · exact startRun_keeps_grantsRight _ h

theorem progStop_keeps_grantsRight (p : List Byte) (s : State) (h : s.grantsRight) : (progStop p s).2.grantsRight := by
  unfold progStop
  split
  · exact h
  · next i _ =>
    split
    · exact runDuty_keeps_grantsRight _ ((keptByDrive_grantsRight.releaseStep i h).congr rfl rfl)
    · exact h

/-- PROG-LOAD writes a slot at most. -/
theorem progLoadFirst_keeps_grantsRight (p : List Byte) (s : State) (h : s.grantsRight) :
    (progLoadFirst p s).2.grantsRight := by
  have load : ∀ i start cont, (loadFirst i p start cont s).2.grantsRight := by
    intro i start cont
    unfold loadFirst
    split
    · exact h
    · split
      · exact h
      · exact h.congr rfl rfl
  unfold progLoadFirst
  split
  · exact h
  · split
    · exact h
    · split
      · exact h
      · split
        · split
          · exact load _ _ _
          · exact h
        · exact h

theorem progLoadNext_keeps_grantsRight (p : List Byte) (s : State) (h : s.grantsRight) :
    (progLoadNext p s).2.grantsRight := by
  unfold progLoadNext
  split
  · exact h
  · split
    · exact h
    · split
      · exact h
      · split
        · exact h
        · split
          · exact h
          · exact h.congr rfl rfl

/-! ### The requests that write neither outlets nor pools -/

theorem rangeSet_keeps_grantsRight (p : List Byte) (s : State) (h : s.grantsRight) : (rangeSet p s).2.grantsRight := by
  unfold rangeSet
  split
  · unfold writeRange
    split
    · split
      · exact h
      · exact h.congr rfl rfl
    · exact h
  · exact h

theorem mapSet_keeps_grantsRight (p : List Byte) (s : State) (h : s.grantsRight) : (mapSet p s).2.grantsRight := by
  unfold mapSet
  simp only
  split
  · exact h
  · split
    · exact h
    · exact h.congr rfl rfl

theorem clockSet_keeps_grantsRight (p : List Byte) (s : State) (h : s.grantsRight) : (clockSet p s).2.grantsRight := by
  unfold clockSet
  split
  · exact h
  · exact h.congr rfl rfl

theorem noticeMask_keeps_grantsRight (p : List Byte) (s : State) (h : s.grantsRight) : (noticeMask p s).2.grantsRight := by
  unfold noticeMask
  simp only
  split <;> exact h.congr rfl rfl

/-- The reading requests change nothing. -/
theorem readOutlet_snd (p : List Byte) (s : State) : (readOutlet p s).2 = s := by
  unfold readOutlet atOutlet
  split <;> rfl

theorem readPool_snd (p : List Byte) (s : State) : (readPool p s).2 = s := by
  unfold readPool
  split <;> rfl

theorem readProg_snd (p : List Byte) (s : State) : (readProg p s).2 = s := by
  unfold readProg
  split <;> rfl

theorem readSensors_snd (p : List Byte) (s : State) : (readSensors p s).2 = s := by
  unfold readSensors
  simp only
  split <;> rfl

/-! ### The link and the resets -/

/-- Frames handed on change the link alone. -/
theorem receive_keeps_grantsRight (bs : List Byte) {s : State} (h : s.grantsRight) : (receive bs s).grantsRight := by
  refine List.foldlRecOn (motive := State.grantsRight) _ _ (h.congr rfl rfl) fun u hu f _ => ?_
  unfold handFrame
  split
  · exact hu.congr rfl rfl
  · split
    · exact hu.congr rfl rfl
    · exact hu

theorem frameArrival_keeps_grantsRight (bytes : List Byte) {s : State} (h : s.grantsRight) :
    (frameArrival bytes s).grantsRight := by
  unfold frameArrival
  split
  · exact h
  · split <;> exact receive_keeps_grantsRight _ h

theorem gapTimerExpiry_keeps_grantsRight {s : State} (h : s.grantsRight) : (gapTimerExpiry s).grantsRight := by
  unfold gapTimerExpiry
  split
  · exact h
  · split
    · exact receive_keeps_grantsRight _ h
    · exact h

/-- After a reset no record is present and no round timer runs (R25, R46). -/
theorem afterReset_grantsRight (speed : LinkSpeed) (bho : Table Bool 6) (olim clim : Table Bool 48) (n : Nat)
    (pending : List Instr) : (afterReset speed bho olim clim n pending).grantsRight := by
  refine ⟨fun c o ho => ?_, fun p _ => ?_⟩
  · simp [afterReset, State.outlet] at ho
  · rcases p with _ | _ | _ <;> rfl

theorem frameSent_keeps_grantsRight {s : State} (h : s.grantsRight) : (frameSent s).grantsRight := by
  unfold frameSent
  split
  · exact h
  · split
    · exact afterReset_grantsRight ..
    · exact h.congr rfl rfl

theorem limitEvent_keeps_grantsRight (c : Channel) (line : LimitLine) (active : Bool) {s : State} (h : s.grantsRight) :
    (limitEvent c line active s).grantsRight := by
  have h₁ : (setLimit c line active s).grantsRight := by cases line <;> exact h.congr rfl rfl
  unfold limitEvent
  simp only
  split
  · exact h
  · split
    · exact h₁
    · exact keptByDrive_grantsRight.limitTaken c line active h₁

/-! ### Every command, and every step -/

/-- A command keeps the invariant: the request rows by their bodies, the events by their meanings. -/
theorem exec_keeps_grantsRight {i : Instr} {s t : State} (h : s.grantsRight) (ht : exec i s = .next t) : t.grantsRight := by
  have hlink : ∀ (s : State) (l : Link), s.grantsRight → { s with link := l }.grantsRight := fun _ _ h => h.congr rfl rfl
  have req := fun (row : Instr) (body : List Byte → State → Answer × State)
      (hbody : ∀ (p : List Byte) (s : State), s.grantsRight → (body p s).2.grantsRight)
      (ht : request row body s = .next t) => request_keeps hlink hbody h ht
  have reads := fun (row : Instr) (body : List Byte → State → Answer × State) (hb : ∀ p s, (body p s).2 = s) =>
    req row body fun p s hs => (hb p s).symm ▸ hs
  have event := fun (f : State → State) (hf : (f s).grantsRight) (ht : running f s = .next t) => running_keeps h hf ht
  cases i with
  | frameArrival bytes => exact event _ (frameArrival_keeps_grantsRight bytes h) ht
  | gapTimerExpiry => exact event _ (gapTimerExpiry_keeps_grantsRight h) ht
  | badKind => exact reads _ _ (fun _ _ => rfl) ht
  | frameSent => exact event _ (frameSent_keeps_grantsRight h) ht
  | rstnAsserted => cases ht; exact h.congr rfl rfl
  | hardwareReset => cases ht; exact afterReset_grantsRight ..
  | outletSet => exact req _ _ outletSet_keeps_grantsRight ht
  | outletDrop => exact req _ _ outletDrop_keeps_grantsRight ht
  | profileSet => exact req _ _ profileSet_keeps_grantsRight ht
  | barSet => exact req _ _ barSet_keeps_grantsRight ht
  | demand => exact req _ _ (fun _ _ hs => demandItems_keeps_grantsRight _ _ hs) ht
  | rehome => exact req _ _ rehome_keeps_grantsRight ht
  | faultClear => exact req _ _ faultClear_keeps_grantsRight ht
  | poolSet => exact req _ _ poolSet_keeps_grantsRight ht
  | profileSwap => exact req _ _ profileSwap_keeps_grantsRight ht
  | supply => exact req _ _ (fun _ _ hs => setSteamPart_keeps_grantsRight _ hs) ht
  | rebalance => exact req _ _ rebalance_keeps_grantsRight ht
  | rangeSet => exact req _ _ rangeSet_keeps_grantsRight ht
  | mapSet => exact req _ _ mapSet_keeps_grantsRight ht
  | progLoadFirst => exact req _ _ progLoadFirst_keeps_grantsRight ht
  | progLoadNext => exact req _ _ progLoadNext_keeps_grantsRight ht
  | progStart => exact req _ _ progStart_keeps_grantsRight ht
  | progStop => exact req _ _ progStop_keeps_grantsRight ht
  | clockSet => exact req _ _ clockSet_keeps_grantsRight ht
  | readOutlet => exact reads _ _ readOutlet_snd ht
  | readPool => exact reads _ _ readPool_snd ht
  | readProg => exact reads _ _ readProg_snd ht
  | readSensors => exact reads _ _ readSensors_snd ht
  | readLog => exact req _ _ (fun _ _ hs => hs.congr rfl rfl) ht
  | readStatus => exact reads _ _ (fun _ _ => rfl) ht
  | noticeAck => exact req _ _ (fun _ _ hs => hs.congr rfl rfl) ht
  | noticeMask => exact req _ _ noticeMask_keeps_grantsRight ht
  | reset => exact req _ _ (fun _ _ hs => hs.congr rfl rfl) ht
  | roundTimerExpiry p => exact event _ (roundTimerExpiry_keeps_grantsRight p h) ht
  | capacityStalenessExpiry => exact event _ (capacityStalenessExpiry_keeps_grantsRight h) ht
  | stalenessTimerExpiry c => exact event _ (stalenessTimerExpiry_keeps_grantsRight c h) ht
  | warmTimerExpiry c => exact event _ (warmTimerExpiry_keeps_grantsRight c h) ht
  | sampleEvent i r => exact event _ (sampleEvent_keeps_grantsRight i r h) ht
  | clockTick => exact event _ (clockTick_keeps_grantsRight h) ht
  | moveTimerExpiry c => exact event _ (keptByDrive_grantsRight.moveTimerExpiry c h) ht
  | checkTimerExpiry c => exact event _ (keptByDrive_grantsRight.checkTimerExpiry c h) ht
  | pauseTimerExpiry c => exact event _ (keptByDrive_grantsRight.pauseTimerExpiry c h) ht
  | limitEvent c line active => cases ht; exact limitEvent_keeps_grantsRight c line active h
  | bhoAssertion b => cases ht; exact bhoAssertion_keeps_grantsRight b h
  | bhoRelease b => cases ht; exact bhoRelease_keeps_grantsRight b h
  | reachTimerExpiry i =>
    refine event _ ?_ ht
    unfold reachTimerExpiry
    split
    · exact runDuty_keeps_grantsRight _ h
    · exact h
  | holdTimerExpiry i =>
    refine event _ ?_ ht
    unfold holdTimerExpiry
    split
    · exact runDuty_keeps_grantsRight _ h
    · exact h
  | gapTimerExpiryProg i =>
    refine event _ ?_ ht
    unfold gapTimerExpiryProg
    split
    · exact beginPass_keeps_grantsRight i _ h
    · exact h

/-- Settles O59: a step is a command on the state with the rest of the queue, or a tick of the millisecond timebase. -/
theorem stepKeepsGrantsRight : Obligations.StepKeepsGrantsRight := by
  unfold Obligations.StepKeepsGrantsRight
  intro s t h ht
  unfold step at ht
  split at ht
  · cases ht
    unfold idle
    split
    · exact h.congr rfl rfl
    · exact h
  · next c rest _ =>
    have h₁ : { s with pending := rest }.grantsRight := h.congr rfl rfl
    exact exec_keeps_grantsRight h₁ ht

end Sys2Proof.Machine
end

section
/-! The state after reset: its records, and that it meets every invariant. -/

namespace Sys2Proof.Machine

theorem reset_outlet (c : Channel) : State.reset.outlet c = none := Table.get_fill ..

theorem reset_position (c : Channel) : State.reset.position c = resetPosition := Table.get_fill ..

theorem reset_slot (i : SlotId) : State.reset.slot i = resetSlot := Table.get_fill ..

theorem reset_claim (c : Channel) : State.reset.claim c = { holder := none, waiters := [] } := Table.get_fill ..

theorem reset_sensor (i : InputId) : State.reset.sensor i = resetSensor := Table.get_fill ..

theorem reset_range (i : Fin 4) : State.reset.xlat.ranges.get i =
    { enable := false, base := 0, size := 1, mapped := false, chanBase := 0, mapBase := 0 } := Table.get_fill ..

theorem reset_handedOff (c : Channel) : State.reset.handedOff c = false := Table.get_fill ..

theorem reset_atReset : State.reset.atReset where
  link := ⟨rfl, rfl, rfl, rfl, rfl, rfl, rfl⟩
  ranges := reset_range
  map _ := Table.get_fill ..
  outlets c := ⟨reset_outlet c, Table.get_fill .., Table.get_fill .., reset_claim c⟩
  positions := reset_position
  motion := ⟨rfl, rfl⟩
  pools := by rintro (_ | _ | _) <;> exact ⟨rfl, rfl, rfl, rfl, rfl, rfl, rfl⟩
  steam := rfl
  hot := by rintro (_ | _) <;> rfl
  log := rfl
  banks _ := rfl
  slots i := by rw [reset_slot]; exact ⟨rfl, rfl, rfl, rfl, rfl, rfl, rfl, rfl, rfl, rfl, rfl, rfl⟩
  sensors := reset_sensor
  clock := rfl

theorem reset_storeBounded : State.reset.storeBounded := by
  refine ⟨?_, fun i => ?_⟩
  · simp [State.stepsStored, reset_slot, resetSlot]
  · rw [reset_slot]
    exact ⟨Nat.zero_le _, rfl⟩

theorem reset_rangesApart : State.reset.rangesApart := by
  refine ⟨fun i => ?_, fun i _ _ he => ?_⟩
  · rw [reset_range]; decide
  · rw [reset_range] at he
    cases he

/-- The reading 0 is valid at every input. -/
theorem reset_scannerInRange : State.reset.scannerInRange := by
  refine ⟨fun i => ?_, by decide, by decide⟩
  rw [reset_sensor]
  refine ⟨?_, by decide, by decide, .inl rfl, fun _ => by decide, fun _ => by decide⟩
  unfold readingValid
  split <;> rfl

theorem reset_drivesBounded : State.reset.drivesBounded := by
  have hstill : (indices 48).filter State.reset.isDriving = [] :=
    List.filter_eq_nil_iff.2 fun c _ => by simp [State.isDriving, reset_position, resetPosition]
  simp [State.drivesBounded, State.slotsHeld, hstill]

theorem reset_positionsInRange : State.reset.positionsInRange := by
  intro c
  rw [reset_position]
  exact ⟨by decide, fun t ht => (by cases ht), by decide, fun _ => by decide⟩

theorem reset_claimsRight : State.reset.claimsRight := by
  refine ⟨fun i => ?_, fun c => ?_⟩
  · rw [reset_slot]
    simp [ProgSlot.timersRight, resetSlot]
  · rw [reset_claim]
    simp

theorem reset_handoffRight : State.reset.handoffRight := by
  intro c hc
  rw [reset_handedOff] at hc
  cases hc

/-- Settles O4: the reset values block by block, and the invariants from them. -/
theorem resetStateHoldsResetValues : Obligations.ResetStateHoldsResetValues := by
  unfold Obligations.ResetStateHoldsResetValues
  have hlink : State.reset.linkBounded := by unfold State.linkBounded; decide
  have hframes : State.reset.framesFit := ⟨fun _ hf => (List.not_mem_nil hf).elim, fun _ hf => (List.not_mem_nil hf).elim⟩
  have hlog : State.reset.logBounded := Nat.zero_le _
  have hqueue : State.reset.queueRight := ⟨List.nodup_nil, fun _ hc => (List.not_mem_nil hc).elim⟩
  exact ⟨reset_atReset, rfl, rfl, hlink, hframes, reset_storeBounded, reset_rangesApart, hlog, reset_scannerInRange,
    afterReset_grantsRight .., reset_drivesBounded, reset_positionsInRange, hqueue, reset_claimsRight, reset_handoffRight⟩

end Sys2Proof.Machine
end

section
/-! A fault stop and its report (R116, R121 to R124). The record of the channel is written, its entry leaves the motion queue,
the arbiter finds nobody to grant, and the report writes the outlet record behind the raise of TRAVEL. -/

namespace Sys2Proof.Machine

/-! ### Rules of the updates the report makes -/

theorem State.setOutlet_raise (k : NoticeKind) (c : Channel) (x : Option Outlet) (s : State) :
    (raise k s).setOutlet c x = raise k (s.setOutlet c x) := by
  have hp : (s.setOutlet c x).isPending k = s.isPending k := rfl
  have hm : (s.setOutlet c x).isMasked k = s.isMasked k := rfl
  unfold raise
  rw [hp, hm]
  cases s.isPending k
  · cases s.isMasked k <;> rfl
  · rfl

theorem State.setOutlet_setOutlet (s : State) (c : Channel) (x y : Option Outlet) :
    (s.setOutlet c x).setOutlet c y = s.setOutlet c y := by
  simp [State.setOutlet]

/-- A record written and raised on, and then changed. -/
theorem modifyOutlet_raise_setOutlet (k : NoticeKind) (c : Channel) (o : Outlet) (f : Outlet → Outlet) (s : State) :
    (raise k (s.setOutlet c (some o))).modifyOutlet c f = raise k (s.setOutlet c (some (f o))) := by
  have ho : (raise k (s.setOutlet c (some o))).outlet c = some o := by simp [State.outlet_setOutlet]
  rw [modifyOutlet_present f ho, State.setOutlet_raise, State.setOutlet_setOutlet]

/-- Where no step is on the outlet, none fails. -/
theorem failStepsOn_free {c : Channel} {s : State} (h : s.claim c = { holder := none, waiters := [] }) (why : FailReason) :
    failStepsOn c why s = s := by
  have hn : ∀ n, runTasks n [] s = s := by rintro (_ | _) <;> rfl
  simp [failStepsOn, stepsOn, h, runDuty, hn]

/-! ### The arbiter with nobody to grant -/

theorem grantable_of_passedOver {s : State} {c : Channel} (h : s.passedOver c) : grantable s c = false := by
  unfold grantable
  rcases h with h | h
  · simp [Option.isNone_iff_eq_none, h]
  · simp [h]

/-- An arbiter that passes over every entry changes nothing (R102). -/
theorem runArbiter_of_passedOver {s : State} (h : ∀ x ∈ s.drive.closing ++ s.drive.opening, s.passedOver x) :
    runArbiter s = s := by
  have hnext : nextEntry s = none := by
    have hc : s.drive.closing.find? (grantable s) = none :=
      List.find?_eq_none.2 fun x hx => by simp [grantable_of_passedOver (h x (by simp [hx]))]
    have ho : s.drive.opening.find? (grantable s) = none :=
      List.find?_eq_none.2 fun x hx => by simp [grantable_of_passedOver (h x (by simp [hx]))]
    simp [nextEntry, hc, ho]
  unfold runArbiter
  generalize s.drive.closing.length + s.drive.opening.length = n
  cases n with
  | zero => rfl
  | succ n => simp [arbiter, hnext]

/-- The channel's own entry gone, the release of its slot grants nobody where all others are passed over. -/
theorem release_grants_none {s : State} {c : Channel} {p : Position} {held : Bool}
    (h : held = false ∨ ∀ x ∈ s.drive.closing ++ s.drive.opening, x = c ∨ s.passedOver x) :
    (if held = true then runArbiter (removeEntry c (s.setPosition c p)) else removeEntry c (s.setPosition c p)) =
      removeEntry c (s.setPosition c p) := by
  rcases h with h | h
  · simp [h]
  · have hnone : runArbiter (removeEntry c (s.setPosition c p)) = removeEntry c (s.setPosition c p) := by
      refine runArbiter_of_passedOver fun x hx => ?_
      obtain ⟨hxs, hxc⟩ : (x ∈ s.drive.closing ++ s.drive.opening) ∧ x ≠ c := by
        have hx' : (x ∈ s.drive.closing ∧ ¬x = c) ∨ (x ∈ s.drive.opening ∧ ¬x = c) := by
          simpa [removeEntry, State.setPosition] using hx
        simpa [or_and_right] using hx'
      have hpos : (removeEntry c (s.setPosition c p)).position x = s.position x := by
        rw [removeEntry_position, State.position_setPosition, if_neg (Ne.symm hxc)]
      exact ((h x hxs).resolve_left hxc).imp (by rw [hpos]; exact id) id
    simp [hnone]

/-! ### The position record -/

/-- EST after a fault stop, by the limits (R116) and the leg driven (R109). -/
theorem eq_faultEst {olim clim : Bool} {p : Position} {est driven : Nat}
    (hdriven : ∀ m : Move, p.move = some m → driven = m.elapsed / m.stroke)
    (hclim : clim = true → olim = false → est = 0) (holim : clim = false → olim = true → est = 1000)
    (hstill : clim = olim → p.move = none → est = p.est)
    (hmove : ∀ m : Move, clim = olim → p.move = some m →
      (m.dir = .closing → est = p.est - driven) ∧ (m.dir = .opening → est = min 1000 (p.est + driven))) :
    est = faultEst olim clim p := by
  have equal : clim = olim → est = (match p.move with
      | some m => estimate p.est m
      | none => p.est) := by
    intro he
    cases hm : p.move with
    | none => exact hstill he hm
    | some m =>
      obtain ⟨hcl, hop⟩ := hmove m he hm
      have hd := hdriven m hm
      cases hdir : m.dir with
      | closing => simp [estimate, hdir, Move.driven, ← hd, hcl hdir]
      | opening => simp [estimate, hdir, Move.driven, ← hd, hop hdir]
  cases clim <;> cases olim
  · exact equal rfl
  · exact holim rfl rfl
  · exact hclim rfl rfl
  · exact equal rfl

/-- The record after a fault stop and its report, field by field (R116, R123). -/
theorem eq_faultPosition {olim clim : Bool} {p q : Position} {driven : Nat} (hest : q.est = faultEst olim clim p)
    (hstill : p.move = none → driven = 0) (hdriven : ∀ m : Move, p.move = some m → driven = m.elapsed / m.stroke)
    (hknown : q.known = false) (htarget : q.target = none) (hmove : q.move = none) (hhome : q.homeReq = false)
    (hpause : q.pause = none) (htravel : q.travel = min 65535 (p.travel + driven))
    (hdrift : q.drift = (p.drift || decide (4000 ≤ q.travel))) :
    q = { faultPosition olim clim p with known := false } := by
  have hfault : faultPosition olim clim p = { addTravel driven p with
      est := faultEst olim clim p, move := none, homeReq := false, target := none, pause := none } := by
    unfold faultPosition
    cases hm : p.move with
    | none => simp only [hstill hm]
    | some m => simp only [hdriven m hm, Move.driven]
  obtain ⟨est, known, target, move, homeReq, travel, drift, pause⟩ := q
  simp only at hest hknown htarget hmove hhome hpause htravel hdrift
  rw [htravel] at hdrift
  simp only [hfault, addTravel, Position.mk.injEq]
  exact ⟨hest, hknown, htarget, hmove, hhome, htravel, hdrift, hpause⟩

/-! ### The report -/

/-- A report at a present outlet: KNOWN is lost, LAST_FAULT set, TRAVEL raised; and then by STATE (R121, R123, R124). -/
theorem faultReport_faults {arb : State → State} {c : Channel} {k : FaultKind} {s : State} {o u : Outlet}
    (ho : s.outlet c = some o)
    (heligible : o.state.eligible = true → (o.fixed.autoRecover = false ∨ k = .bothLimits) → u = { o with
      state := .faulted, assumedDraw := o.grant, grant := 0, effDemand := 0, warmTimer := none, lastFault := some k })
    (hhoming : o.state = .homing → u = { o with state := .faulted, recovery := false, lastFault := some k })
    (hlocked : o.state = .locked → u = { o with state := .faulted, lastFault := some k })
    (hcase : o.state = .homing ∨ o.state = .locked ∨
      o.state.eligible = true ∧ (o.fixed.autoRecover = false ∨ k = .bothLimits)) :
    faultReport arb c k s = failStepsOn c .travel (raise .travel
      ((s.modifyPosition c fun p => { p with known := false }).setOutlet c (some u))) := by
  unfold faultReport
  simp only [ho]
  rcases hcase with hs | hs | ⟨he, hrec⟩
  · simp only [hs, hhoming hs, modifyOutlet_raise_setOutlet]
  · simp only [hs, hlocked hs, modifyOutlet_raise_setOutlet]
  · have hno : ¬(o.fixed.autoRecover = true ∧ k ≠ .bothLimits) := by
      rcases hrec with h | h <;> simp [h]
    cases hs : o.state <;> simp [hs, OutletState.eligible] at he <;>
      simp only [hno, if_false, heligible (by rw [hs]; rfl) hrec, modifyOutlet_raise_setOutlet, leaveEligible]

/-- A recoverable fault re-homes an eligible outlet (R124). -/
theorem faultReport_recovers {arb : State → State} {c : Channel} {k : FaultKind} {s : State} {o : Outlet}
    (ho : s.outlet c = some o) (he : o.state.eligible = true) (ha : o.fixed.autoRecover = true) (hk : k ≠ .bothLimits) :
    faultReport arb c k s = homingRequest arb c (raise .travel
      ((s.modifyPosition c fun p => { p with known := false }).setOutlet c (some { o with
        state := .homing, assumedDraw := o.grant, grant := 0, effDemand := 0, warmTimer := none, recovery := true,
        lastFault := some k }))) := by
  unfold faultReport
  simp only [ho]
  cases hs : o.state <;> simp [hs, OutletState.eligible] at he <;>
    simp only [ha, hk, ne_eq, not_false_eq_true, and_self, if_true, modifyOutlet_raise_setOutlet, leaveEligible]

/-- A fault stop that grants nobody is its report on the state with the channel stilled and unqueued. -/
theorem faultStop_eq_report {s : State} {c : Channel} {held : Bool} (k : FaultKind)
    (h : held = false ∨ ∀ x ∈ s.drive.closing ++ s.drive.opening, x = c ∨ s.passedOver x) :
    faultStop runArbiter held c k s = faultReport runArbiter c k (removeEntry c (s.setPosition c
      (faultPosition (s.olimActive c) (s.climActive c) (s.position c)))) := by
  unfold faultStop State.modifyPosition
  simp only
  rw [release_grants_none h]

/-- The record of the stop and the KNOWN of the report are one write, behind which the entry is gone. -/
theorem removeEntry_setPosition_known (s : State) (c : Channel) (p : Position) :
    (removeEntry c (s.setPosition c p)).modifyPosition c (fun p => { p with known := false }) =
      (s.setPosition c { p with known := false }).withQueue
        (s.drive.closing.filter fun x => x ≠ c) (s.drive.opening.filter fun x => x ≠ c) := by
  have hpos : (removeEntry c (s.setPosition c p)).position c = p := by
    rw [removeEntry_position, State.position_setPosition, if_pos rfl]
  unfold State.modifyPosition
  rw [hpos]
  simp [State.setPosition, removeEntry, State.withQueue]

/-- Settles O45: the stop is the report on the stilled and unqueued channel, and the report is one outlet record behind a raise. -/
theorem faultStopReportsFault : Obligations.FaultStopReportsFault := by
  unfold Obligations.FaultStopReportsFault
  intro s c k held o p q driven r hqueue ho hp hstill hdriven hclim holim hequal hmoving hknown htarget hmove hhome hpause
    htravel hdrift hr
  have hest : q.est = faultEst (s.olimActive c) (s.climActive c) p := eq_faultEst hdriven hclim holim hequal hmoving
  have hq : q = { faultPosition (s.olimActive c) (s.climActive c) (s.position c) with known := false } :=
    hp ▸ eq_faultPosition hest hstill hdriven hknown htarget hmove hhome hpause htravel hdrift
  have hrecord : (removeEntry c (s.setPosition c (faultPosition (s.olimActive c) (s.climActive c)
      (s.position c)))).modifyPosition c (fun p => { p with known := false }) = r := by
    rw [removeEntry_setPosition_known, ← hq, hr]
  have ho' : (removeEntry c (s.setPosition c (faultPosition (s.olimActive c) (s.climActive c)
      (s.position c)))).outlet c = some o := by simpa using ho
  refine ⟨fun u heligible hhoming hlocked hcase => ?_, fun he ha hk => ?_⟩
  · have hstop : faultStop runArbiter held c k s = failStepsOn c .travel (raise .travel (r.setOutlet c (some u))) := by
      rw [faultStop_eq_report k hqueue, faultReport_faults ho' heligible hhoming hlocked hcase, hrecord]
    refine ⟨hstop, fun hfree => ?_⟩
    have hclaim : (raise .travel (r.setOutlet c (some u))).claim c = { holder := none, waiters := [] } := by
      rw [raise_claim, State.setOutlet_claim, hr, ← hfree]
      rfl
    rw [hstop, failStepsOn_free hclaim]
  · rw [faultStop_eq_report k hqueue, faultReport_recovers ho' he ha hk, hrecord]
    rfl

end Sys2Proof.Machine
end

section
/-! The Outlet Table: the clamps of R7 and R8, and its requests (R6 to R19, R127, R128). Each request has one equation of its
body for each outcome; what the command does is that equation on the state with the head frame gone. -/

namespace Sys2Proof.Machine

/-! ### The clamps (R7, R8) -/

/-- A clamped weight is the nearest value in 1 to 15. -/
theorem clampNat_range {lo hi : Nat} (h : lo ≤ hi) (n : Nat) :
    lo ≤ clampNat lo hi n ∧ clampNat lo hi n ≤ hi ∧ (n ≤ lo → clampNat lo hi n = lo) ∧ (hi ≤ n → clampNat lo hi n = hi) ∧
    (lo ≤ n → n ≤ hi → clampNat lo hi n = n) := by
  unfold clampNat
  omega

/-- A clamped temperature is the nearest value in -200 to 2000. -/
theorem clampTemp_range (z : Int) :
    -200 ≤ clampTemp z ∧ clampTemp z ≤ 2000 ∧ (z < -200 → clampTemp z = -200) ∧ (2000 < z → clampTemp z = 2000) ∧
    (-200 ≤ z → z ≤ 2000 → clampTemp z = z) := by
  unfold clampTemp
  omega

theorem clampFixed_eq_self {x : FixedPart} (hr : x.ratedKw ≤ 2000) (hf : x.fallbackKw ≤ x.ratedKw) (hw : x.warmMaxS ≤ 1800)
    (hl : -200 ≤ x.warmTemp) (hh : x.warmTemp ≤ 2000) : clampFixed x = x := by
  simp [clampFixed, hr, hf, hw, (clampTemp_range x.warmTemp).2.2.2.2 hl hh]

theorem clampProfile_eq_self {rated : Nat} {y : Profile} (hm : y.maxKw ≤ rated) (hf : y.floorKw ≤ y.maxKw)
    (hl : 1 ≤ y.weight) (hh : y.weight ≤ 15) (hw : y.warmKw ≤ rated) (ht : 1 ≤ y.tolerance) : clampProfile rated y = y := by
  simp [clampProfile, hm, hf, hw, ht, (clampNat_range (by decide) y.weight).2.2.2.2 hl hh]

/-- Settles O20: minima and maxima field by field, the temperature and the weight by their two-sided clamps. -/
theorem outletClampsGiveRanges : Obligations.OutletClampsGiveRanges := by
  unfold Obligations.OutletClampsGiveRanges
  intro x y rated
  obtain ⟨htl, hth, htlow, hthigh, htin⟩ := clampTemp_range x.warmTemp
  obtain ⟨hwl, hwh, hwlow, hwhigh, hwin⟩ := clampNat_range (show 1 ≤ 15 by decide) y.weight
  have hfixed : ∀ h : HwPool, x.pool = .hw h → hwFixed x = { x with warmTemp := 0, warmMaxS := 0 } := by
    intro h hp
    simp [hwFixed, hp]
  exact ⟨⟨rfl, rfl, rfl, htl, hth, htlow, hthigh, htin, rfl, rfl, rfl⟩,
    ⟨rfl, rfl, hwl, hwh, fun h => hwlow (by omega), fun h => hwhigh (by omega), hwin, rfl, rfl, rfl⟩,
    clampFixed_eq_self, clampProfile_eq_self, fun hp => by simp [hwFixed, hp], rfl, fun h => ⟨hfixed h, rfl⟩⟩

/-! ### OUTLET-SET (R6 to R11) -/

/-- With an address that translates, good codes and the plain ranges kept, OUTLET-SET comes to its write. -/
theorem outletSet_writes {p : List Byte} {s : State} {c : Channel} {pool : Pool} {ar : Bool} {cls : ServiceClass}
    (hc : translate s.xlat (readWord p 0) = .ok c) (hpool : poolOf (readByte p 2) = some pool)
    (har : flagOf (readByte p 9) = some ar) (hcls : classOf (readByte p 14) = some cls) (hlo : 30 ≤ readWord p 5)
    (hhi : readWord p 5 ≤ 600) (hrated : readWord p 3 ≠ 0) :
    outletSet p s = writeOutlet c (readFixed p pool ar) (readProfile p 14 cls) s := by
  rw [outletSet, atOutlet_ok _ hc]
  simp [hpool, har, hcls, readFixed, hlo, hhi, hrated]

/-- A bad code or a value out of its plain range is refused RANGE. -/
theorem outletSet_refuses {p : List Byte} {s : State} {c : Channel} (hc : translate s.xlat (readWord p 0) = .ok c)
    (h : 3 ≤ readByte p 2 ∨ 2 ≤ readByte p 9 ∨ 4 ≤ readByte p 14 ∨ readWord p 5 < 30 ∨ 600 < readWord p 5 ∨
      readWord p 3 = 0) : outletSet p s = (.refuse .range, s) := by
  rw [outletSet, atOutlet_ok _ hc]
  split
  · next pool ar cls hpool har hcls =>
    have hplain : ¬(30 ≤ readWord p 5 ∧ readWord p 5 ≤ 600 ∧ readWord p 3 ≠ 0) := by
      rcases h with h | h | h | h
      · simp [poolOf_eq_none h] at hpool
      · simp [flagOf_eq_none h] at har
      · simp [classOf_eq_none h] at hcls
      · omega
    exact if_neg hplain
  · rfl

theorem hwFixed_ratedKw (x : FixedPart) : (hwFixed x).ratedKw = x.ratedKw := by
  unfold hwFixed
  split <;> rfl

/-- The status of an OUTLET-SET that writes. -/
def outletSetStatus (raw : FixedPart) (rawX : Profile) : Status :=
  doneStatus (decide (clampFixed raw ≠ raw) || decide (clampProfile (clampFixed raw).ratedKw rawX ≠ rawX))

theorem outletSetStatus_cases (raw : FixedPart) (rawX : Profile) :
    (outletSetStatus raw rawX = .done ∨ outletSetStatus raw rawX = .doneClamped) ∧
    (outletSetStatus raw rawX = .done ↔
      clampFixed raw = raw ∧ clampProfile (hwFixed (clampFixed raw)).ratedKw rawX = rawX) := by
  obtain ⟨hor, hiff⟩ := doneStatus_cases
    (decide (clampFixed raw ≠ raw) || decide (clampProfile (clampFixed raw).ratedKw rawX ≠ rawX))
  refine ⟨hor, hiff.trans ?_⟩
  rw [hwFixed_ratedKw]
  simp

theorem writeOutlet_creates {s : State} {c : Channel} (raw : FixedPart) (rawX : Profile) (ho : s.outlet c = none) :
    writeOutlet c raw rawX s = (⟨outletSetStatus raw rawX, [byte c.val]⟩, createOutlet c (hwFixed (clampFixed raw))
      (hwProfile raw.pool (clampProfile (hwFixed (clampFixed raw)).ratedKw rawX)) s) := by
  rw [hwFixed_ratedKw]
  unfold writeOutlet
  simp only [ho]
  rfl

theorem writeOutlet_refuses {s : State} {c : Channel} {o : Outlet} {raw : FixedPart} {st : Status} (rawX : Profile)
    (ho : s.outlet c = some o) (hst : replaceCheck c raw.pool o s = some st) :
    writeOutlet c raw rawX s = (.refuse st, s) := by
  unfold writeOutlet
  simp only [ho, hst]

theorem writeOutlet_replaces {s : State} {c : Channel} {o : Outlet} {raw : FixedPart} (rawX : Profile)
    (ho : s.outlet c = some o) (hst : replaceCheck c raw.pool o s = none) :
    writeOutlet c raw rawX s = (⟨outletSetStatus raw rawX, [byte c.val]⟩, initNeighbours c
      (hwProfile raw.pool (clampProfile (hwFixed (clampFixed raw)).ratedKw rawX)).tolerance
      (s.setOutlet c (some (replaceOutlet (hwFixed (clampFixed raw))
        (hwProfile raw.pool (clampProfile (hwFixed (clampFixed raw)).ratedKw rawX)) o)))) := by
  rw [hwFixed_ratedKw]
  unfold writeOutlet
  simp only [ho, hst]
  rfl

theorem replaceCheck_busy {s : State} {c : Channel} {o : Outlet} (pool : Pool)
    (h : o.state = .homing ∨ o.state = .warming ∨ o.state = .serving ∨ o.state = .held) :
    replaceCheck c pool o s = some .state := by
  rcases h with h | h | h | h <;> simp [replaceCheck, h]

theorem replaceCheck_conflict {s : State} {c : Channel} {o : Outlet} {pool : Pool}
    (hs : o.state = .idle ∨ o.state = .locked ∨ o.state = .faulted)
    (h : (o.feederOf ≠ none ∧ pool ≠ .steam) ∨ (s.claim c).holder ≠ none) :
    replaceCheck c pool o s = some .conflict := by
  have hcheck : (if o.feederOf.isSome ∧ pool ≠ .steam then some Status.conflict
      else if (s.claim c).holder.isSome then some .conflict else none) = some .conflict := by
    split
    · rfl
    · next hf =>
      have hh := h.resolve_left fun hf' => hf (hf'.imp_left Option.isSome_iff_ne_none.2)
      rw [if_pos (Option.isSome_iff_ne_none.2 hh)]
  rcases hs with hs | hs | hs <;> rw [replaceCheck, hs] <;> exact hcheck

theorem replaceCheck_passes {s : State} {c : Channel} {o : Outlet} {pool : Pool}
    (hs : o.state = .idle ∨ o.state = .locked ∨ o.state = .faulted) (hf : o.feederOf = none ∨ pool = .steam)
    (hh : (s.claim c).holder = none) : replaceCheck c pool o s = none := by
  have hfeeder : ¬(o.feederOf.isSome = true ∧ pool ≠ .steam) := by
    rcases hf with hf | hf <;> simp [hf]
  rcases hs with hs | hs | hs <;> simp only [replaceCheck, hs, hfeeder, hh, if_false] <;> rfl

/-- OUTLET_SET as a command: what its body answers on the state with the frame gone. -/
theorem exec_outletSet {s t : State} {f : Frame} {rest : List Frame} {a : Answer} (h : s.takes f rest) (hk : f.kind = 0x01)
    (hl : f.payload.length = 23) (hb : outletSet f.payload (s.dequeue rest) = (a, t)) :
    exec .outletSet s = .next (t.answered f a) :=
  request_answers h (requestRow_of_kind hk (by decide)) (by simp [fits, hl]) hb

/-- Settles O21: the write of OUTLET-SET on an absent record. -/
theorem outletSetCreatesRecord : Obligations.OutletSetCreatesRecord := by
  unfold Obligations.OutletSetCreatesRecord
  intro s f rest c pool ar cls hs hk hl hc hpool har hcls hlo hhi hrated ho raw rawX hraw hrawX
  obtain ⟨hor, hiff⟩ := outletSetStatus_cases raw rawX
  refine ⟨_, _, outletSetStatus raw rawX, rfl, rfl, hor, hiff, ?_⟩
  have hb := (outletSet_writes (s := s.dequeue rest) hc hpool har hcls hlo hhi hrated).trans
    (writeOutlet_creates (readFixed f.payload pool ar) (readProfile f.payload 14 cls) ho)
  subst hraw hrawX
  exact exec_outletSet hs hk hl hb

/-- Settles O22: the write of OUTLET-SET on a present record, by the outcome of its checks 3 to 5. -/
theorem outletSetReplacesRecord : Obligations.OutletSetReplacesRecord := by
  unfold Obligations.OutletSetReplacesRecord
  intro s f rest c o pool ar cls hs hk hl hc hpool har hcls hlo hhi hrated ho raw rawX hraw hrawX
  have hw := outletSet_writes (s := s.dequeue rest) hc hpool har hcls hlo hhi hrated
  obtain ⟨hor, hiff⟩ := outletSetStatus_cases raw rawX
  refine ⟨fun hbusy => ?_, fun hstill => ⟨fun hconflict => ?_, fun hfeeder hfree => ?_⟩⟩
  · exact exec_outletSet hs hk hl (hw.trans (writeOutlet_refuses _ ho (replaceCheck_busy _ hbusy)))
  · exact exec_outletSet hs hk hl (hw.trans (writeOutlet_refuses _ ho (replaceCheck_conflict hstill hconflict)))
  · refine ⟨_, _, outletSetStatus raw rawX, rfl, rfl, hor, hiff, ?_⟩
    have hb := hw.trans (writeOutlet_replaces _ ho (replaceCheck_passes hstill hfeeder hfree))
    subst hraw hrawX
    exact exec_outletSet hs hk hl hb

/-- Settles O23: the address first, and then the codes and plain ranges. -/
theorem outletSetRefusesBadFields : Obligations.OutletSetRefusesBadFields := by
  unfold Obligations.OutletSetRefusesBadFields
  intro s f rest hs hk hl
  refine ⟨fun st hst => ?_, fun c hc hbad => ?_⟩
  · exact exec_outletSet hs hk hl (atOutlet_error (s := s.dequeue rest) _ hst)
  · exact exec_outletSet hs hk hl (outletSet_refuses (s := s.dequeue rest) hc hbad)

/-! ### OUTLET-DROP (R12, R13) -/

theorem dropCheck_absent {s : State} {c : Channel} (ho : s.outlet c = none) : dropCheck c s = some .state := by
  simp [dropCheck, ho]

theorem dropCheck_busy {s : State} {c : Channel} {o : Outlet} (ho : s.outlet c = some o)
    (h : o.state = .homing ∨ o.state = .warming ∨ o.state = .serving ∨ o.state = .held) : dropCheck c s = some .state := by
  rcases h with h | h | h | h <;> simp [dropCheck, ho, h]

theorem dropCheck_conflict {s : State} {c : Channel} {o : Outlet} (ho : s.outlet c = some o)
    (hs : o.state = .idle ∨ o.state = .locked ∨ o.state = .faulted) (h : o.feederOf ≠ none ∨ (s.claim c).holder ≠ none) :
    dropCheck c s = some .conflict := by
  have hcheck : (if o.feederOf.isSome then some Status.conflict
      else if (s.claim c).holder.isSome then some .conflict else none) = some .conflict := by
    rcases h with h | h <;> simp [Option.isSome_iff_ne_none.2 h]
  rcases hs with hs | hs | hs <;> simp only [dropCheck, ho, hs] <;> exact hcheck

theorem dropCheck_passes {s : State} {c : Channel} {o : Outlet} (ho : s.outlet c = some o)
    (hs : o.state = .idle ∨ o.state = .locked ∨ o.state = .faulted) (hf : o.feederOf = none)
    (hh : (s.claim c).holder = none) : dropCheck c s = none := by
  rcases hs with hs | hs | hs <;> simp [dropCheck, ho, hs, hf, hh]

theorem outletDrop_refuses {p : List Byte} {s : State} {c : Channel} {st : Status}
    (hc : translate s.xlat (readWord p 0) = .ok c) (hst : dropCheck c s = some st) :
    outletDrop p s = (.refuse st, s) := by
  rw [outletDrop, atOutlet_ok _ hc]
  simp only [hst]

theorem outletDrop_drops {p : List Byte} {s : State} {c : Channel} (hc : translate s.xlat (readWord p 0) = .ok c)
    (hst : dropCheck c s = none) :
    outletDrop p s = (⟨.done, [byte c.val]⟩, stopChannel c ((s.setOutlet c none).setDemand c .absent)) := by
  rw [outletDrop, atOutlet_ok _ hc]
  simp only [hst]

/-- The stop of a channel that does not drive (R115). -/
theorem stopChannel_still {s : State} {c : Channel} (h : (s.position c).move = none) :
    stopChannel c s =
      removeEntry c (s.setPosition c { s.position c with pause := none, homeReq := false, target := none }) := by
  unfold stopChannel State.modifyPosition estimateLeg
  simp only [h]
  rfl

theorem exec_outletDrop {s t : State} {f : Frame} {rest : List Frame} {a : Answer} (h : s.takes f rest) (hk : f.kind = 0x02)
    (hl : f.payload.length = 2) (hb : outletDrop f.payload (s.dequeue rest) = (a, t)) :
    exec .outletDrop s = .next (t.answered f a) :=
  request_answers h (requestRow_of_kind hk (by decide)) (by simp [fits, hl]) hb

/-- Settles O24, by the outcome of the checks of R12; a channel that does not drive stops without the arbiter. -/
theorem outletDropRemovesRecord : Obligations.OutletDropRemovesRecord := by
  unfold Obligations.OutletDropRemovesRecord
  intro s f rest hs hk hl
  refine ⟨fun st hst => exec_outletDrop hs hk hl (atOutlet_error (s := s.dequeue rest) _ hst), fun c hc => ?_⟩
  have refuses : ∀ st, dropCheck c (s.dequeue rest) = some st → exec .outletDrop s = .next (s.refused f rest st) :=
    fun st hst => exec_outletDrop hs hk hl (outletDrop_refuses (s := s.dequeue rest) hc hst)
  refine ⟨fun ho => refuses _ (dropCheck_absent ho), fun o ho => ⟨fun hbusy => refuses _ (dropCheck_busy ho hbusy),
    fun hstill => ⟨fun hconflict => refuses _ (dropCheck_conflict ho hstill hconflict), fun hfeeder hfree => ?_⟩⟩⟩
  have hdrop := exec_outletDrop hs hk hl
    (outletDrop_drops (s := s.dequeue rest) hc (dropCheck_passes ho hstill hfeeder hfree))
  refine ⟨hdrop, fun hmove => ?_⟩
  rw [hdrop, stopChannel_still (by simpa using hmove)]
  rfl

/-! ### PROFILE-SET (R14, R15) -/

theorem hwProfile_eq (p : Pool) (x : Profile) : hwProfile p x = if p = .steam then x else { x with warmKw := 0 } := by
  cases p <;> simp [hwProfile]

theorem doneStatus_decide_ne (x y : Profile) :
    doneStatus (decide (x ≠ y)) = if x = y then .done else .doneClamped := by
  by_cases h : x = y <;> simp [doneStatus, h]

theorem profileSet_badCode {p : List Byte} {s : State} {c : Channel} (hc : translate s.xlat (readWord p 0) = .ok c)
    (h : 2 ≤ readByte p 2 ∨ 4 ≤ readByte p 3) : profileSet p s = (.refuse .range, s) := by
  rw [profileSet, atOutlet_ok _ hc]
  split
  · next hbank hcls =>
    rcases h with h | h
    · simp [bankOfCode_eq_none h] at hbank
    · simp [classOf_eq_none h] at hcls
  · rfl

theorem profileSet_absent {p : List Byte} {s : State} {c : Channel} {set : ProfileBank} {cls : ServiceClass}
    (hc : translate s.xlat (readWord p 0) = .ok c) (hset : bankOfCode (readByte p 2) = some set)
    (hcls : classOf (readByte p 3) = some cls) (ho : s.outlet c = none) : profileSet p s = (.refuse .state, s) := by
  rw [profileSet, atOutlet_ok _ hc]
  simp only [hset, hcls, ho]

/-- PROFILE-SET with its codes read, on a present record. -/
theorem profileSet_present {p : List Byte} {s : State} {c : Channel} {set : ProfileBank} {cls : ServiceClass} {o : Outlet}
    (hc : translate s.xlat (readWord p 0) = .ok c) (hset : bankOfCode (readByte p 2) = some set)
    (hcls : classOf (readByte p 3) = some cls) (ho : s.outlet c = some o) : profileSet p s =
      if set = (s.pool o.fixed.pool).activeBank then (.refuse .state, s)
      else if (s.pool o.fixed.pool).swapPending = true then (.refuse .pending, s)
      else (⟨doneStatus (decide (clampProfile o.fixed.ratedKw (readProfile p 3 cls) ≠ readProfile p 3 cls)), [byte c.val]⟩,
        s.setOutlet c (some (writeSet set
          (hwProfile o.fixed.pool (clampProfile o.fixed.ratedKw (readProfile p 3 cls))) o))) := by
  rw [profileSet, atOutlet_ok _ hc]
  simp only [hset, hcls, ho]

theorem exec_profileSet {s t : State} {f : Frame} {rest : List Frame} {a : Answer} (h : s.takes f rest) (hk : f.kind = 0x03)
    (hl : f.payload.length = 12) (hb : profileSet f.payload (s.dequeue rest) = (a, t)) :
    exec .profileSet s = .next (t.answered f a) :=
  request_answers h (requestRow_of_kind hk (by decide)) (by simp [fits, hl]) hb

/-- Settles O25, by the checks of R14 in their order. -/
theorem profileSetWritesInactiveSet : Obligations.ProfileSetWritesInactiveSet := by
  unfold Obligations.ProfileSetWritesInactiveSet
  intro s f rest hs hk hl
  refine ⟨fun st hst => exec_profileSet hs hk hl (atOutlet_error (s := s.dequeue rest) _ hst), fun c hc => ?_⟩
  refine ⟨fun hbad => exec_profileSet hs hk hl (profileSet_badCode (s := s.dequeue rest) hc hbad),
    fun set cls hset hcls => ⟨fun ho => exec_profileSet hs hk hl (profileSet_absent (s := s.dequeue rest) hc hset hcls ho),
      fun o ho => ?_⟩⟩
  have hb := profileSet_present (s := s.dequeue rest) hc hset hcls ho
  rw [State.dequeue_pool] at hb
  refine ⟨fun hactive => ?_, fun hactive hpending => ?_, fun hactive hpending raw hraw => ?_⟩
  · exact exec_profileSet hs hk hl (hb.trans (if_pos hactive))
  · exact exec_profileSet hs hk hl (hb.trans ((if_neg hactive).trans (if_pos hpending)))
  · rw [if_neg hactive, if_neg (by simp [hpending]), doneStatus_decide_ne, hwProfile_eq] at hb
    subst hraw
    refine ⟨_, rfl, ?_⟩
    cases set <;> exact exec_profileSet hs hk hl hb

/-! ### BAR-SET (R16 to R19, R21, R151) -/

theorem State.outlet_setOutlet_same (s : State) (c : Channel) (x : Option Outlet) : (s.setOutlet c x).outlet c = x := by
  rw [State.outlet_setOutlet, if_pos rfl]

/-- BAR_ALL newly set on an eligible outlet (R18). -/
theorem lockOutlet_eligible {s : State} {c : Channel} {o : Outlet} (he : o.state.eligible = true) :
    lockOutlet c (s.setOutlet c (some o)) = giveTarget c 0 (s.setOutlet c (some
      { o with state := .locked, grant := 0, effDemand := 0, assumedDraw := 0, warmTimer := none })) := by
  unfold lockOutlet
  simp only [State.outlet_setOutlet_same, he, if_true, State.setOutlet_setOutlet]

/-- BAR_ALL newly set on an outlet that is not eligible (R19). -/
theorem lockOutlet_ineligible {s : State} {c : Channel} {o : Outlet} (he : o.state.eligible = false) :
    lockOutlet c (s.setOutlet c (some o)) = s.setOutlet c (some o) := by
  unfold lockOutlet
  simp [State.outlet_setOutlet_same, he]

/-- BAR_ALL newly cleared (R21). -/
theorem unlockOutlet_setOutlet (s : State) (c : Channel) (o : Outlet) :
    unlockOutlet c (s.setOutlet c (some o)) =
      s.setOutlet c (some (if o.state = .locked then { o with state := .idle } else o)) := by
  rw [unlockOutlet, modifyOutlet_present _ (State.outlet_setOutlet_same ..), State.setOutlet_setOutlet]

/-- BAR-SET on a present record, its action codes good. -/
theorem barSet_applies {p : List Byte} {s : State} {c : Channel} {o : Outlet} {new : Bars}
    (hc : translate s.xlat (readWord p 0) = .ok c) (ho : s.outlet c = some o)
    (hhost : readByte p 2 = 0 ∧ new.host = o.bars.host ∨ readByte p 2 = 1 ∧ new.host = true ∨
      readByte p 2 = 2 ∧ new.host = false)
    (hprog : readByte p 3 = 0 ∧ new.prog = o.bars.prog ∨ readByte p 3 = 1 ∧ new.prog = true ∨
      readByte p 3 = 2 ∧ new.prog = false)
    (hall : readByte p 4 = 0 ∧ new.all = o.bars.all ∨ readByte p 4 = 1 ∧ new.all = true ∨
      readByte p 4 = 2 ∧ new.all = false) :
    barSet p s = (⟨.done, [byte c.val]⟩, applyBars c o.bars new (s.setOutlet c (some { o with bars := new }))) := by
  have hcodes : ¬(2 < readByte p 2 ∨ 2 < readByte p 3 ∨ 2 < readByte p 4) := by omega
  rw [barSet, atOutlet_ok _ hc]
  simp only [hcodes, if_false, ho, barAction_getD hhost, barAction_getD hprog, barAction_getD hall]

theorem barSet_badCode {p : List Byte} {s : State} {c : Channel} (hc : translate s.xlat (readWord p 0) = .ok c)
    (h : 3 ≤ readByte p 2 ∨ 3 ≤ readByte p 3 ∨ 3 ≤ readByte p 4) : barSet p s = (.refuse .range, s) := by
  rw [barSet, atOutlet_ok _ hc]
  exact if_pos h

theorem barSet_absent {p : List Byte} {s : State} {c : Channel} (hc : translate s.xlat (readWord p 0) = .ok c)
    (h₂ : readByte p 2 < 3) (h₃ : readByte p 3 < 3) (h₄ : readByte p 4 < 3) (ho : s.outlet c = none) :
    barSet p s = (.refuse .state, s) := by
  have hcodes : ¬(2 < readByte p 2 ∨ 2 < readByte p 3 ∨ 2 < readByte p 4) := by omega
  rw [barSet, atOutlet_ok _ hc]
  simp only [hcodes, if_false, ho]

theorem applyBars_locks {s : State} {c : Channel} {o : Outlet} {old new : Bars} (hold : old.all = false)
    (hnew : new.all = true) (he : o.state.eligible = true) :
    applyBars c old new (s.setOutlet c (some o)) = failStepsOn c .barred (giveTarget c 0 (s.setOutlet c (some
      { o with state := .locked, grant := 0, effDemand := 0, assumedDraw := 0, warmTimer := none }))) := by
  unfold applyBars
  simp [hold, hnew, lockOutlet_eligible he]

theorem applyBars_unlocks {s : State} {c : Channel} {o : Outlet} {old new : Bars} (hold : old.all = true)
    (hnew : new.all = false) (hs : o.state = .locked) :
    applyBars c old new (s.setOutlet c (some o)) =
      if old.prog = false ∧ new.prog = true then failStepsOn c .barred (s.setOutlet c (some { o with state := .idle }))
      else s.setOutlet c (some { o with state := .idle }) := by
  unfold applyBars
  simp [hold, hnew, unlockOutlet_setOutlet, hs]

/-- Where BAR_ALL stands, or changes at an outlet whose STATE it does not bear on, only the steps feel the bars. -/
theorem applyBars_flags {s : State} {c : Channel} {o : Outlet} {old new : Bars}
    (h : old.all = new.all ∨ (new.all = true ∧ o.state.eligible = false) ∨ (new.all = false ∧ o.state ≠ .locked)) :
    applyBars c old new (s.setOutlet c (some o)) =
      if (old.all = false ∧ new.all = true) ∨ (old.prog = false ∧ new.prog = true) then
        failStepsOn c .barred (s.setOutlet c (some o))
      else s.setOutlet c (some o) := by
  have hstate : (if old.all = false ∧ new.all = true then lockOutlet c (s.setOutlet c (some o))
      else if old.all = true ∧ new.all = false then unlockOutlet c (s.setOutlet c (some o))
      else s.setOutlet c (some o)) = s.setOutlet c (some o) := by
    rcases h with h | ⟨hnew, he⟩ | ⟨hnew, hs⟩
    · cases hn : new.all <;> simp [h, hn]
    · simp [hnew, lockOutlet_ineligible he]
    · simp [hnew, unlockOutlet_setOutlet, hs]
  unfold applyBars
  simp only [hstate]

theorem exec_barSet {s t : State} {f : Frame} {rest : List Frame} {a : Answer} (h : s.takes f rest) (hk : f.kind = 0x04)
    (hl : f.payload.length = 5) (hb : barSet f.payload (s.dequeue rest) = (a, t)) :
    exec .barSet s = .next (t.answered f a) :=
  request_answers h (requestRow_of_kind hk (by decide)) (by simp [fits, hl]) hb

/-- Settles O26, by what becomes of BAR_ALL. -/
theorem barSetAppliesActions : Obligations.BarSetAppliesActions := by
  unfold Obligations.BarSetAppliesActions
  intro s f rest hs hk hl
  refine ⟨fun st hst => exec_barSet hs hk hl (atOutlet_error (s := s.dequeue rest) _ hst), fun c hc =>
    ⟨fun hbad => exec_barSet hs hk hl (barSet_badCode (s := s.dequeue rest) hc hbad), fun h₂ h₃ h₄ =>
      ⟨fun ho => exec_barSet hs hk hl (barSet_absent (s := s.dequeue rest) hc h₂ h₃ h₄ ho), ?_⟩⟩⟩
  intro o new ho hhost hprog hall
  have hexec := exec_barSet hs hk hl (barSet_applies (s := s.dequeue rest) hc ho hhost hprog hall)
  rw [hexec]
  refine ⟨fun hold hnew he => ?_, fun hold hnew hlocked hno => ?_, fun hold hnew hlocked hp hq => ?_, fun hflags => ?_⟩
  · rw [applyBars_locks (o := { o with bars := new }) hold hnew he]
  · rw [applyBars_unlocks (o := { o with bars := new }) hold hnew hlocked, if_neg hno]
  · rw [applyBars_unlocks (o := { o with bars := new }) hold hnew hlocked, if_pos ⟨hp, hq⟩]
  · rw [applyBars_flags (o := { o with bars := new }) hflags]

/-! ### REHOME and FAULT-CLEAR (R127, R128) -/

theorem isEligible_present {s : State} {c : Channel} {o : Outlet} (ho : s.outlet c = some o) :
    s.isEligible c = o.state.eligible := by
  simp [State.isEligible, ho]

theorem rehome_refuses {p : List Byte} {s : State} {c : Channel} (hc : translate s.xlat (readWord p 0) = .ok c)
    (he : s.isEligible c = false) : rehome p s = (.refuse .state, s) := by
  rw [rehome, atOutlet_ok _ hc]
  simp [he]

theorem rehome_homes {p : List Byte} {s : State} {c : Channel} {o : Outlet} (hc : translate s.xlat (readWord p 0) = .ok c)
    (ho : s.outlet c = some o) (he : o.state.eligible = true) :
    rehome p s = (⟨.done, [byte c.val]⟩, requestHoming c (s.setOutlet c (some (leaveEligible .homing o)))) := by
  rw [rehome, atOutlet_ok _ hc, isEligible_present ho, if_pos he, modifyOutlet_present _ ho]

theorem faultClear_refuses {p : List Byte} {s : State} {c : Channel} (hc : translate s.xlat (readWord p 0) = .ok c)
    (h : s.outlet c = none ∨ s.handedOff c = true ∨ ∃ o : Outlet, s.outlet c = some o ∧ o.state ≠ .faulted) :
    faultClear p s = (.refuse .state, s) := by
  rw [faultClear, atOutlet_ok _ hc]
  split
  · rfl
  · next o ho =>
    have hno : ¬(o.state = .faulted ∧ s.handedOff c = false) := by
      rcases h with h | h | ⟨o', ho', hne⟩
      · simp [ho] at h
      · simp [h]
      · obtain rfl : o = o' := by simpa [ho] using ho'
        exact fun hf => hne hf.1
    exact if_neg hno

theorem faultClear_homes {p : List Byte} {s : State} {c : Channel} {o : Outlet}
    (hc : translate s.xlat (readWord p 0) = .ok c) (ho : s.outlet c = some o) (hf : o.state = .faulted)
    (hh : s.handedOff c = false) :
    faultClear p s = (⟨.done, [byte c.val]⟩, requestHoming c (s.setOutlet c (some { o with state := .homing }))) := by
  rw [faultClear, atOutlet_ok _ hc]
  simp only [ho]
  exact if_pos ⟨hf, hh⟩

theorem exec_rehome {s t : State} {f : Frame} {rest : List Frame} {a : Answer} (h : s.takes f rest) (hk : f.kind = 0x06)
    (hl : f.payload.length = 2) (hb : rehome f.payload (s.dequeue rest) = (a, t)) :
    exec .rehome s = .next (t.answered f a) :=
  request_answers h (requestRow_of_kind hk (by decide)) (by simp [fits, hl]) hb

theorem exec_faultClear {s t : State} {f : Frame} {rest : List Frame} {a : Answer} (h : s.takes f rest) (hk : f.kind = 0x07)
    (hl : f.payload.length = 2) (hb : faultClear f.payload (s.dequeue rest) = (a, t)) :
    exec .faultClear s = .next (t.answered f a) :=
  request_answers h (requestRow_of_kind hk (by decide)) (by simp [fits, hl]) hb

/-- Settles O28, by the two KINDs and the outcome of their STATE checks. -/
theorem rehomeAndFaultClearEnterHoming : Obligations.RehomeAndFaultClearEnterHoming := by
  unfold Obligations.RehomeAndFaultClearEnterHoming
  intro s f rest hs hl
  refine ⟨fun st hst => ⟨fun hk => ?_, fun hk => ?_⟩, fun c hc => ⟨fun hk => ⟨fun he => ?_, fun o ho he => ?_⟩,
    fun hk => ⟨fun hbad => ?_, fun o ho hf hh => ?_⟩⟩⟩
  · exact exec_rehome hs hk hl (atOutlet_error (s := s.dequeue rest) _ hst)
  · exact exec_faultClear hs hk hl (atOutlet_error (s := s.dequeue rest) _ hst)
  · exact exec_rehome hs hk hl (rehome_refuses (s := s.dequeue rest) hc he)
  · exact exec_rehome hs hk hl (rehome_homes (s := s.dequeue rest) hc ho he)
  · exact exec_faultClear hs hk hl (faultClear_refuses (s := s.dequeue rest) hc hbad)
  · exact exec_faultClear hs hk hl (faultClear_homes (s := s.dequeue rest) hc ho hf hh)

end Sys2Proof.Machine
end

section
/-! The read requests (R24, R45, R156, R163, R187): the lengths of their data, where a field stands in it, and each part of it
by the codes of 11.5. -/

namespace Sys2Proof.Machine

/-! ### Bytes and where they stand -/

@[simp] theorem be16_length (n : Nat) : (be16 n).length = 2 := rfl

@[simp] theorem be24_length (n : Nat) : (be24 n).length = 3 := rfl

@[simp] theorem beInt_length (z : Int) : (beInt z).length = 2 := rfl

@[simp] theorem be16Opt_length (t : Option Nat) : (be16Opt t).length = 2 := by
  cases t <;> rfl

theorem readByte_of_getElem? {p : List Byte} {i : Nat} {b : Byte} (h : p[i]? = some b) : readByte p i = b.toNat := by
  simp [readByte, List.getD_eq_getElem?_getD, h]

/-- A 2-byte number, high byte first, read where it stands. -/
theorem readWord_of_getElem? {p : List Byte} {i n : Nat} (h₀ : p[i]? = some (byte (n / 256)))
    (h₁ : p[i + 1]? = some (byte n)) : readWord p i = n % 65536 := by
  rw [readWord, readByte_of_getElem? h₀, readByte_of_getElem? h₁]
  simp only [byte, BitVec.toNat_ofNat]
  omega

theorem readWord_be16 {p pre : List Byte} {i n : Nat} (hp : ∃ tail, p = pre ++ (be16 n ++ tail)) (hi : pre.length = i) :
    readWord p i = n % 65536 := by
  obtain ⟨tail, rfl⟩ := hp
  subst hi
  refine readWord_of_getElem? ?_ ?_
  · rw [List.getElem?_append_right (Nat.le_refl _), Nat.sub_self]
    rfl
  · rw [List.getElem?_append_right (Nat.le_add_right ..), Nat.add_sub_cancel_left]
    rfl

/-- A record of a list of records of `m` bytes each, byte by byte. -/
theorem getElem?_flatMap_records {α : Type} {g : α → List Byte} {m : Nat} (hg : ∀ x, (g x).length = m) {l : List α} {k : Nat}
    {x : α} (hk : l[k]? = some x) {j : Nat} (hj : j < m) : (l.flatMap g)[m * k + j]? = (g x)[j]? := by
  induction l generalizing k with
  | nil => simp at hk
  | cons y l ih =>
    rw [List.flatMap_cons]
    cases k with
    | zero =>
      obtain rfl : y = x := by simpa using hk
      rw [Nat.mul_zero, Nat.zero_add, List.getElem?_append_left (by rwa [hg])]
    | succ k =>
      have e : m * (k + 1) + j = (g y).length + (m * k + j) := by rw [hg, Nat.mul_succ]; omega
      rw [e, List.getElem?_append_right (Nat.le_add_right ..), Nat.add_sub_cancel_left]
      exact ih (by simpa using hk)

theorem length_flatMap_records {α : Type} {g : α → List Byte} {m : Nat} (hg : ∀ x, (g x).length = m) (l : List α) :
    (l.flatMap g).length = m * l.length := by
  induction l with
  | nil => rfl
  | cons y l ih => rw [List.flatMap_cons, List.length_append, hg, ih, List.length_cons, Nat.mul_succ, Nat.add_comm]

/-! ### READ-OUTLET (R24) -/

theorem eq_claimBytes {x : Claim} {claim : List Byte} (hfree : x.holder = none → claim = [0xFF, 0, 0])
    (hheld : ∀ h : Holder, x.holder = some h → claim = [byte h.slot.val, byte h.step, byte x.waiters.length]) :
    claim = claimBytes x := by
  cases hx : x.holder with
  | none => simpa [claimBytes, hx] using hfree hx
  | some h => simpa [claimBytes, hx] using hheld h hx

theorem eq_demandBytes {d : HostDemand} {demand : List Byte} (habsent : d = .absent → demand = [0, 0, 0, 0, 0, 0])
    (hcurrent : ∀ kw n : Nat, d = .current kw n → demand = [1] ++ be16 kw ++ [0] ++ be16 n)
    (hstale : ∀ kw : Nat, d = .stale kw → demand = [1] ++ be16 kw ++ [1, 0, 0]) : demand = demandBytes d := by
  cases d with
  | absent => exact habsent rfl
  | current kw n => exact hcurrent kw n rfl
  | stale kw => exact hstale kw rfl

theorem eq_motionCode {move : Option Move} {motion : Byte} (hstill : move = none → motion = 0)
    (hmove : ∀ m : Move, move = some m → (m.dir = .opening → motion = 1) ∧ (m.dir = .closing → motion = 2)) :
    motion = motionCode move := by
  cases move with
  | none => exact hstill rfl
  | some m =>
    obtain ⟨hopening, hclosing⟩ := hmove m rfl
    cases hd : m.dir with
    | opening => simpa [motionCode, hd] using hopening hd
    | closing => simpa [motionCode, hd] using hclosing hd

theorem eq_tierCode {s : State} {c : Channel} {tier : Byte} (hclosing : c ∈ s.drive.closing → tier = 1)
    (hopening : c ∉ s.drive.closing → c ∈ s.drive.opening → tier = 2)
    (hnone : c ∉ s.drive.closing → c ∉ s.drive.opening → tier = 0) : tier = tierCode (s.queuedTier c) := by
  unfold State.queuedTier
  by_cases hc : c ∈ s.drive.closing
  · simpa [hc, tierCode] using hclosing hc
  · by_cases ho : c ∈ s.drive.opening
    · simpa [hc, ho, tierCode] using hopening hc ho
    · simpa [hc, ho, tierCode] using hnone hc ho

theorem eq_stateCode {o : Outlet} {state : Byte} (hhoming : o.state = .homing → state = 1) (hidle : o.state = .idle → state = 2)
    (hwarming : o.state = .warming → state = 3) (hserving : o.state = .serving → state = 4)
    (hheld : o.state = .held → state = 5) (hlocked : o.state = .locked → state = 6)
    (hfaulted : o.state = .faulted → state = 7) : state = stateCode (some o) := by
  cases hs : o.state with
  | homing => simpa [stateCode, hs] using hhoming hs
  | idle => simpa [stateCode, hs] using hidle hs
  | warming => simpa [stateCode, hs] using hwarming hs
  | serving => simpa [stateCode, hs] using hserving hs
  | held => simpa [stateCode, hs] using hheld hs
  | locked => simpa [stateCode, hs] using hlocked hs
  | faulted => simpa [stateCode, hs] using hfaulted hs

theorem eq_feederCode {o : Outlet} {feeder : Byte} (hnone : o.feederOf = none → feeder = 0xFF)
    (hhw1 : o.feederOf = some .hw1 → feeder = 1) (hhw2 : o.feederOf = some .hw2 → feeder = 2) :
    feeder = (o.feederOf.map hwCode).getD 0xFF := by
  rcases ho : o.feederOf with _ | _ | _
  · exact hnone ho
  · exact hhw1 ho
  · exact hhw2 ho

@[simp] theorem recordBytes_length (o : Option Outlet) (s : State) : (recordBytes o s).length = 34 := by
  cases o <;> simp [recordBytes, fixedBytes, profileBytes]

@[simp] theorem dynamicBytes_length (o : Option Outlet) : (dynamicBytes o).length = 12 := by
  cases o <;> simp [dynamicBytes]

@[simp] theorem demandBytes_length (d : HostDemand) : (demandBytes d).length = 6 := by
  cases d <;> simp [demandBytes]

@[simp] theorem curtailBytes_length (o : Option Outlet) (x : Curtailment) : (curtailBytes o x).length = 2 := by
  cases o <;> rfl

@[simp] theorem claimBytes_length (x : Claim) : (claimBytes x).length = 3 := by
  unfold claimBytes
  split <;> rfl

@[simp] theorem positionBytes_length (c : Channel) (s : State) : (positionBytes c s).length = 10 := by
  simp [positionBytes]

theorem outletBytes_length (c : Channel) (s : State) : (outletBytes c s).length = 69 := by
  simp [outletBytes]

/-- EST stands at offset 59. -/
theorem readWord_outletBytes_est (c : Channel) (s : State) : readWord (outletBytes c s) 59 = (s.position c).est % 65536 := by
  refine readWord_be16 (pre := [byte c.val, stateCode (s.outlet c)] ++ recordBytes (s.outlet c) s ++
    dynamicBytes (s.outlet c) ++ demandBytes (s.demand c) ++ curtailBytes (s.outlet c) (s.curtailment c) ++ claimBytes (s.claim c)) ?_ ?_
  · simp only [outletBytes, positionBytes, List.append_assoc]
    exact ⟨_, rfl⟩
  · simp

/-- GRANT of a present record stands at offset 36. -/
theorem readWord_outletBytes_grant {c : Channel} {s : State} {o : Outlet} (ho : s.outlet c = some o) :
    readWord (outletBytes c s) 36 = o.grant % 65536 := by
  refine readWord_be16 (pre := [byte c.val, stateCode (some o)] ++ recordBytes (some o) s) ?_ ?_
  · simp only [outletBytes, ho, dynamicBytes, List.append_assoc]
    exact ⟨_, rfl⟩
  · simp

theorem outletBytes_dequeue (c : Channel) (s : State) (rest : List Frame) :
    outletBytes c (s.dequeue rest) = outletBytes c s := by
  cases ho : s.outlet c <;> simp [outletBytes, recordBytes, positionBytes, ho]

theorem exec_readOutlet {s : State} {f : Frame} {rest : List Frame} {a : Answer} (h : s.takes f rest) (hk : f.kind = 0x12)
    (hl : f.payload.length = 2) (hb : readOutlet f.payload (s.dequeue rest) = (a, s.dequeue rest)) :
    exec .readOutlet s = .next ((s.dequeue rest).answered f a) :=
  request_answers h (requestRow_of_kind hk (by decide)) (by simp [fits, hl]) hb

theorem readOutlet_answers {p : List Byte} {s : State} {c : Channel} {rest : List Frame}
    (hc : translate s.xlat (readWord p 0) = .ok c) :
    readOutlet p (s.dequeue rest) = (⟨.done, outletBytes c s⟩, s.dequeue rest) := by
  rw [readOutlet, atOutlet_ok (s := s.dequeue rest) _ hc, outletBytes_dequeue]

/-! ### READ-POOL (R45) -/

@[simp] theorem settingsBytes_length (x : PoolSettings) : (settingsBytes x).length = 6 := by
  simp [settingsBytes]

@[simp] theorem steamBytes_length (x : SteamSettings) : (steamBytes x).length = 9 := by
  simp [steamBytes]

@[simp] theorem hwBytes_length (x : HwPart) : (hwBytes x).length = 7 := by
  simp [hwBytes]

@[simp] theorem operatingBytes_length (r : PoolRecord) : (operatingBytes r).length = 3 := rfl

@[simp] theorem figuresBytes_length (r : PoolRecord) : (figuresBytes r).length = 19 := by
  simp [figuresBytes]

theorem poolBytes_length (p : Pool) (s : State) : (poolBytes p s).length = if p = .steam then 43 else 36 := by
  cases p <;> simp [poolBytes]

theorem poolBytes_head (p : Pool) (s : State) : (poolBytes p s)[0]? = some (poolCode p) := by
  cases p <;> simp [poolBytes]

/-- LAST_C stands 8 bytes into the figures, which stand last. -/
theorem readWord_poolBytes_c (p : Pool) (s : State) :
    readWord (poolBytes p s) (if p = .steam then 32 else 25) = (s.pool p).figures.c % 65536 := by
  cases p with
  | steam =>
    refine readWord_be16 (pre := poolCode .steam :: settingsBytes (s.pool .steam).settings ++
      steamBytes s.pools.steamPart.settings ++ operatingBytes (s.pool .steam) ++ be16 s.pools.steamPart.cd ++ [flagByte s.pools.steamPart.capStale] ++
      be16Opt s.pools.steamPart.capTimer ++ be16 (s.pool .steam).figures.b ++ be16 (s.pool .steam).figures.a ++
      be16 (s.pool .steam).figures.k ++ be16 (s.pool .steam).figures.h) ?_ ?_
    · simp only [poolBytes, figuresBytes, List.append_assoc, List.cons_append]
      exact ⟨_, rfl⟩
    · simp
  | hw h =>
    refine readWord_be16 (pre := poolCode (.hw h) :: settingsBytes (s.pool (.hw h)).settings ++ hwBytes (s.hwPart h) ++
      operatingBytes (s.pool (.hw h)) ++ be16 (s.pool (.hw h)).figures.b ++ be16 (s.pool (.hw h)).figures.a ++
      be16 (s.pool (.hw h)).figures.k ++ be16 (s.pool (.hw h)).figures.h) ?_ ?_
    · simp only [poolBytes, figuresBytes, List.append_assoc, List.cons_append]
      exact ⟨_, rfl⟩
    · simp

theorem poolBytes_dequeue (p : Pool) (s : State) (rest : List Frame) : poolBytes p (s.dequeue rest) = poolBytes p s := by
  cases p <;> simp [poolBytes]

theorem eq_feederBytes {y : HwPart} {feeder : List Byte} (hnone : y.feeder = none → feeder = [0xFF, 0xFF])
    (hsome : ∀ c : Channel, y.feeder = some c → feeder = be16 (32768 + c.val)) :
    feeder = be16Opt (y.feeder.map fun c => 32768 + c.val) := by
  cases hf : y.feeder with
  | none => exact hnone hf
  | some c => exact hsome c hf

theorem exec_readPool {s : State} {f : Frame} {rest : List Frame} {a : Answer} (h : s.takes f rest) (hk : f.kind = 0x13)
    (hl : f.payload.length = 1) (hb : readPool f.payload (s.dequeue rest) = (a, s.dequeue rest)) :
    exec .readPool s = .next ((s.dequeue rest).answered f a) :=
  request_answers h (requestRow_of_kind hk (by decide)) (by simp [fits, hl]) hb

theorem readPool_answers {p : List Byte} {s : State} {pool : Pool} {rest : List Frame}
    (hp : poolOf (readByte p 0) = some pool) :
    readPool p (s.dequeue rest) = (⟨.done, poolBytes pool s⟩, s.dequeue rest) := by
  unfold readPool
  simp only [hp, poolBytes_dequeue]

theorem readPool_refuses {p : List Byte} {s : State} (h : 3 ≤ readByte p 0) : readPool p s = (.refuse .range, s) := by
  unfold readPool
  simp only [poolOf_eq_none h]

/-! ### READ-PROG (R156) -/

@[simp] theorem settingsPart_length (x : ProgSlot) : (settingsPart x).length = 10 := by
  unfold settingsPart
  split <;> simp

@[simp] theorem stepPart_length (i : SlotId) (s : State) : (stepPart i s).length = 8 := by
  unfold stepPart
  simp only
  split <;> simp

theorem progBytes_length (i : SlotId) (s : State) : (progBytes i s).length = 24 + (s.slot i).results.length := by
  simp [progBytes]
  omega

/-- The first place of a member, counted by what stands before it. -/
theorem getElem?_takeWhile_ne {α : Type} [DecidableEq α] {l : List α} {x : α} (h : x ∈ l) :
    l[(l.takeWhile (· ≠ x)).length]? = some x ∧ x ∉ l.take (l.takeWhile (· ≠ x)).length := by
  induction l with
  | nil => simp at h
  | cons y l ih =>
    by_cases hy : y = x
    · simp [hy]
    · have hl : x ∈ l := by simpa [Ne.symm hy] using h
      simpa [hy, Ne.symm hy] using ih hl

/-- The claim position of a step in progress that holds its claim or waits for it (R156). -/
theorem eq_claimPosition {s : State} {i : SlotId} {st : Step} {position : Byte} (hst : (s.slot i).currentStep = some st)
    (hholder : (∃ h : Holder, (s.claim st.channel).holder = some h ∧ h.slot = i) → position = 0)
    (hwaiter : ∀ k : Nat, (∀ h : Holder, (s.claim st.channel).holder = some h → h.slot ≠ i) →
      (s.claim st.channel).waiters[k]? = some i → i ∉ (s.claim st.channel).waiters.take k → position = byte (k + 1))
    (hon : (∃ h : Holder, (s.claim st.channel).holder = some h ∧ h.slot = i) ∨ i ∈ (s.claim st.channel).waiters) :
    position = claimPosition i s := by
  unfold claimPosition
  simp only [hst]
  by_cases hh : ∃ h : Holder, (s.claim st.channel).holder = some h ∧ h.slot = i
  · obtain ⟨h, hh₁, hh₂⟩ := hh
    simp [hh₁, hh₂, hholder ⟨h, hh₁, hh₂⟩]
  · have hno : (s.claim st.channel).holder.any (fun h => h.slot == i) = false := by
      rw [Option.any_eq_false]
      exact fun h hh' => by simpa using fun e => hh ⟨h, hh', e⟩
    obtain ⟨hget, hfirst⟩ := getElem?_takeWhile_ne (hon.resolve_left hh)
    rw [hwaiter _ (fun h hh' e => hh ⟨h, hh', e⟩) hget hfirst, hno]
    simp [byte, BitVec.ofNat_add]

theorem claimPosition_none {s : State} {i : SlotId} (hst : (s.slot i).currentStep = none) : claimPosition i s = 0xFF := by
  unfold claimPosition
  simp only [hst]

theorem eq_slotStateCode {x : ProgSlot} {state : Byte} (hempty : x.state = .empty → state = 0)
    (hloaded : x.state = .loaded → state = 1) (hwaiting : x.state = .waiting → state = 2)
    (hrunning : x.state = .running → state = 3) (hdone : x.state = .done → state = 4)
    (hfaulted : x.state = .faulted → state = 5) (hstopped : x.state = .stopped → state = 6) : state = x.state.code := by
  cases hs : x.state with
  | empty => exact hempty hs
  | loaded => exact hloaded hs
  | waiting => exact hwaiting hs
  | running => exact hrunning hs
  | done => exact hdone hs
  | faulted => exact hfaulted hs
  | stopped => exact hstopped hs

theorem eq_settingsPart {x : ProgSlot} {settings : List Byte} (hempty : x.state = .empty → settings = List.replicate 10 0)
    (hfull : x.state ≠ .empty → settings = [byte x.steps.length, byte x.loops] ++ be16Opt x.start ++ be16 x.intervalMin ++
      [flagByte x.continueOnFault, byte x.loopsLeft] ++ be16 x.loopStart) : settings = settingsPart x := by
  unfold settingsPart
  split
  · next hs => exact hempty hs
  all_goals next hs => exact hfull (by simp [hs])

theorem eq_phaseCode {x : ProgSlot} {phase : Byte} (hp : x.phase ≠ .none) (hclaiming : x.phase = .claiming → phase = 1)
    (hreaching : x.phase = .reaching → phase = 2) (hholding : x.phase = .holding → phase = 3) : phase = x.phase.code := by
  cases hx : x.phase with
  | none => exact absurd hx hp
  | claiming => exact hclaiming hx
  | reaching => exact hreaching hx
  | holding => exact hholding hx

/-- The step part with a step in progress. -/
theorem stepPart_inProgress {i : SlotId} {s : State} (hp : (s.slot i).phase ≠ .none) :
    stepPart i s = [byte (s.slot i).curStep, (s.slot i).phase.code, claimPosition i s] ++ be16Opt (s.slot i).reach ++
      be16Opt (s.slot i).hold ++ [byte (s.slot i).dips] := by
  unfold stepPart
  simp only
  split
  · next hx => exact absurd hx hp
  all_goals rfl

theorem stepPart_idle {i : SlotId} {s : State} (hp : (s.slot i).phase = .none) :
    stepPart i s = [byte (s.slot i).curStep, 0, 0xFF, 0xFF, 0xFF, 0xFF, 0xFF, 0] := by
  unfold stepPart
  simp only [hp]

/-- The step part, by the phase and the claim position of the step in progress. -/
theorem eq_stepPart {s : State} {i : SlotId} {phase position : Byte} {step : List Byte}
    (hclaiming : (s.slot i).phase = .claiming → phase = 1) (hreaching : (s.slot i).phase = .reaching → phase = 2)
    (hholding : (s.slot i).phase = .holding → phase = 3) (hposition : position = claimPosition i s)
    (hidle : (s.slot i).phase = .none → step = [byte (s.slot i).curStep, 0, 0xFF, 0xFF, 0xFF, 0xFF, 0xFF, 0])
    (hbusy : (s.slot i).phase ≠ .none → step = [byte (s.slot i).curStep, phase, position] ++ be16Opt (s.slot i).reach ++
      be16Opt (s.slot i).hold ++ [byte (s.slot i).dips]) : step = stepPart i s := by
  by_cases hphase : (s.slot i).phase = .none
  · rw [hidle hphase, stepPart_idle hphase]
  · rw [hbusy hphase, stepPart_inProgress hphase, eq_phaseCode hphase hclaiming hreaching hholding, hposition]

theorem progBytes_dequeue (i : SlotId) (s : State) (rest : List Frame) : progBytes i (s.dequeue rest) = progBytes i s := rfl

theorem slotOf_val {n : Nat} {i : SlotId} (h : i.val = n) : slotOf n = some i := by
  subst h
  simp [slotOf]

theorem exec_readProg {s : State} {f : Frame} {rest : List Frame} {a : Answer} (h : s.takes f rest) (hk : f.kind = 0x14)
    (hl : f.payload.length = 1) (hb : readProg f.payload (s.dequeue rest) = (a, s.dequeue rest)) :
    exec .readProg s = .next ((s.dequeue rest).answered f a) :=
  request_answers h (requestRow_of_kind hk (by decide)) (by simp [fits, hl]) hb

theorem readProg_answers {p : List Byte} {s : State} {i : SlotId} {rest : List Frame} (hi : i.val = readByte p 0) :
    readProg p (s.dequeue rest) = (⟨.done, progBytes i s⟩, s.dequeue rest) := by
  unfold readProg
  simp only [slotOf_val hi, progBytes_dequeue]

theorem readProg_refuses {p : List Byte} {s : State} (h : 4 ≤ readByte p 0) : readProg p s = (.refuse .range, s) := by
  have hslot : slotOf (readByte p 0) = none := dif_neg (by omega)
  unfold readProg
  simp only [hslot]

/-! ### READ-SENSORS (R163) -/

theorem sensorBytes_length (x : Sensor) : (sensorBytes x).length = 3 := by
  simp [sensorBytes]

theorem clockBytes_length (x : PlantClock) : (clockBytes x).length = 4 := by
  simp [clockBytes]

/-- The input state byte: FAULT, BAD_RUN and GOOD_RUN have bits of their own (11.5). -/
theorem sensorStateByte_toNat {x : Sensor} (hb : x.badRun < 4) (hg : x.goodRun < 4) :
    (sensorStateByte x).toNat = x.faulted.toNat + 2 * x.badRun + 8 * x.goodRun := by
  have bits : ∀ (f : Bool) (b g : Fin 4),
      (flagByte f ||| byte (2 * b.val) ||| byte (8 * g.val)).toNat = f.toNat + 2 * b.val + 8 * g.val := by decide
  exact bits x.faulted ⟨x.badRun, hb⟩ ⟨x.goodRun, hg⟩

/-- The inputs that a READ-SENSORS names, in order. -/
theorem getElem?_sensors {s : State} {first count k : Nat} {i : InputId} (hk : k < count) (hi : i.val = first + k) :
    ((s.sensors.toList.drop first).take count)[k]? = some (s.sensor i) := by
  have hlt : first + k < s.sensors.toList.length := by rw [s.sensors.size_eq, ← hi]; exact i.isLt
  rw [List.getElem?_take_of_lt hk, List.getElem?_drop, List.getElem?_eq_getElem hlt, State.sensor, Table.get_eq]
  simp only [hi]

/-- READ-SENSORS data: the clock, then the inputs. -/
def sensorsData (first count : Nat) (s : State) : List Byte :=
  clockBytes s.clock ++ ((s.sensors.toList.drop first).take count).flatMap sensorBytes

theorem sensorsData_length {first count : Nat} {s : State} (h : first + count ≤ 51) :
    (sensorsData first count s).length = 4 + 3 * count := by
  rw [sensorsData, List.length_append, clockBytes_length, length_flatMap_records sensorBytes_length, List.length_take,
    List.length_drop, s.sensors.size_eq, Nat.min_eq_left (by omega)]

/-- Byte `j` of the input `k` places behind the first. -/
theorem getElem?_sensorsData {s : State} {first count k j : Nat} {i : InputId} (hk : k < count) (hi : i.val = first + k)
    (hj : j < 3) : (sensorsData first count s)[4 + 3 * k + j]? = (sensorBytes (s.sensor i))[j]? := by
  rw [sensorsData, List.getElem?_append_right (by rw [clockBytes_length]; omega), clockBytes_length, Nat.add_assoc,
    Nat.add_sub_cancel_left]
  exact getElem?_flatMap_records sensorBytes_length (getElem?_sensors hk hi) hj

/-- The last good reading of an input, in two's complement. -/
theorem readWord_sensorsData {s : State} {first count k : Nat} {i : InputId} (hk : k < count) (hi : i.val = first + k) :
    ((readWord (sensorsData first count s) (4 + 3 * k) : Nat) : Int) = (s.sensor i).lastGood % 65536 := by
  have hword : readWord (sensorsData first count s) (4 + 3 * k) = ((s.sensor i).lastGood % 65536).toNat % 65536 :=
    readWord_of_getElem? (getElem?_sensorsData (j := 0) hk hi (by decide)) (getElem?_sensorsData (j := 1) hk hi (by decide))
  rw [hword]
  omega

theorem readByte_sensorsData {s : State} {first count k : Nat} {i : InputId} (hk : k < count) (hi : i.val = first + k)
    (hb : (s.sensor i).badRun < 4) (hg : (s.sensor i).goodRun < 4) : readByte (sensorsData first count s) (6 + 3 * k) =
      (s.sensor i).faulted.toNat + 2 * (s.sensor i).badRun + 8 * (s.sensor i).goodRun := by
  have hplace : 6 + 3 * k = 4 + 3 * k + 2 := by omega
  rw [hplace, ← sensorStateByte_toNat hb hg]
  exact readByte_of_getElem? (getElem?_sensorsData hk hi (by decide))

theorem exec_readSensors {s : State} {f : Frame} {rest : List Frame} {a : Answer} (h : s.takes f rest) (hk : f.kind = 0x15)
    (hl : f.payload.length = 2) (hb : readSensors f.payload (s.dequeue rest) = (a, s.dequeue rest)) :
    exec .readSensors s = .next ((s.dequeue rest).answered f a) :=
  request_answers h (requestRow_of_kind hk (by decide)) (by simp [fits, hl]) hb

theorem readSensors_refuses {p : List Byte} {s : State} (h : 50 < readByte p 0 ∨ readByte p 1 = 0 ∨ 24 < readByte p 1 ∨
    51 < readByte p 0 + readByte p 1) : readSensors p s = (.refuse .range, s) :=
  if_pos h

theorem readSensors_answers {p : List Byte} {s : State} {rest : List Frame} (h₁ : 1 ≤ readByte p 1) (h₂ : readByte p 1 ≤ 24)
    (h₃ : readByte p 0 + readByte p 1 ≤ 51) : readSensors p (s.dequeue rest) =
      (⟨.done, sensorsData (readByte p 0) (readByte p 1) s⟩, s.dequeue rest) :=
  if_neg (by omega)

/-! ### READ-STATUS (R187) -/

/-- HANDED_OFF of the six banks as the bits of a number. -/
theorem handedOffByte_toNat (s : State) :
    (handedOffByte s).toNat = Nat.ofBits fun b : BankId => s.handoff.handedOff.get b := by
  have hbit : ∀ b : BankId, (if s.handoff.handedOff.get b = true then 2 ^ b.val else 0) =
      2 ^ b.val * (s.handoff.handedOff.get b).toNat := by
    intro b
    cases s.handoff.handedOff.get b <;> simp
  have hsum : ((indices 6).map fun b => if s.handoff.handedOff.get b then 2 ^ b.val else 0).sum =
      Nat.ofBits fun b : BankId => s.handoff.handedOff.get b := by
    simp only [hbit, indices_eq_finRange]
    simp [List.finRange_succ, Nat.ofBits_succ]
    omega
  have hlt := Nat.ofBits_lt_two_pow fun b : BankId => s.handoff.handedOff.get b
  rw [handedOffByte, hsum, byte, BitVec.toNat_ofNat, Nat.mod_eq_of_lt (by omega)]

theorem rangeBytes_length (s : State) (i : Fin 4) : (rangeBytes s i).length = 9 := by
  simp [rangeBytes]

theorem statusBytes_length (s : State) : (statusBytes s).length = 88 := by
  have h48 : (indices 48).length = 48 := by rw [indices_eq_finRange, List.length_finRange]
  have h4 : (indices 4).length = 4 := by rw [indices_eq_finRange, List.length_finRange]
  simp [statusBytes, noticeBytes, length_flatMap_records (rangeBytes_length s), h48, h4]

/-- LAST_FAULT of a channel, one byte each from offset 4. -/
theorem getElem?_statusBytes_fault (s : State) (c : Channel) : (statusBytes s)[4 + c.val]? = some (lastFaultByte s c) := by
  have hc : (indices 48)[c.val]? = some c := by
    rw [indices_eq_finRange, List.getElem?_eq_getElem (by simp), List.getElem_finRange]
    rfl
  rw [statusBytes, List.append_assoc, List.getElem?_append_right (by simp [noticeBytes]),
    List.getElem?_append_left (by simp [noticeBytes, indices_eq_finRange])]
  simp [noticeBytes, hc]

theorem getElem?_statusBytes_present {s : State} {c : Channel} {o : Outlet} (ho : s.outlet c = some o) :
    (statusBytes s)[4 + c.val]? = some (faultCode o.lastFault) := by
  rw [getElem?_statusBytes_fault, lastFaultByte, ho]

theorem getElem?_statusBytes_speed (s : State) : (statusBytes s)[2]? = some s.link.speed.code := rfl

theorem readByte_statusBytes_banks (s : State) :
    readByte (statusBytes s) 3 = Nat.ofBits fun b : BankId => s.handoff.handedOff.get b :=
  (readByte_of_getElem? rfl).trans (handedOffByte_toNat s)

/-- The ranges, 9 bytes each from offset 52. -/
theorem statusBytes_range (s : State) (i : Fin 4) : ((statusBytes s).drop (52 + 9 * i.val)).take 9 = rangeBytes s i := by
  have hi : (indices 4)[i.val]? = some i := by
    rw [indices_eq_finRange, List.getElem?_eq_getElem (by simp), List.getElem_finRange]
    rfl
  apply List.ext_getElem?
  intro j
  by_cases hj : j < 9
  · rw [List.getElem?_take_of_lt hj, List.getElem?_drop, statusBytes,
      List.getElem?_append_right (by simp [noticeBytes, indices_eq_finRange]; omega),
      ← getElem?_flatMap_records (rangeBytes_length s) hi hj]
    congr 1
    simp [noticeBytes, indices_eq_finRange]
    omega
  · rw [List.getElem?_take_eq_none (by omega), List.getElem?_eq_none (by rw [rangeBytes_length]; omega)]

theorem exec_readStatus {s : State} {f : Frame} {rest : List Frame} (h : s.takes f rest) (hk : f.kind = 0x17)
    (hl : f.payload = []) : exec .readStatus s = .next ((s.dequeue rest).answered f ⟨.done, statusBytes s⟩) :=
  request_answers h (requestRow_of_kind hk (by decide)) (by simp [fits, hl]) rfl

/-! ### The statement -/

/-- The result bytes of READ-PROG, one for each step. -/
theorem resultBytes_codes (rs : List StepResult) (k : Nat) (r : StepResult) (h : rs[k]? = some r) :
    (rs.map StepResult.code)[k]? = some r.code := by
  rw [List.getElem?_map, h, Option.map_some]

/-- Settles O55, request by request: the data of 11.5 from the codes of its parts. -/
theorem readsAreSnapshots : Obligations.ReadsAreSnapshots := by
  unfold Obligations.ReadsAreSnapshots
  intro s f rest hs
  refine ⟨fun hk hl => ⟨fun st hst => ?_, fun c hc => ?_⟩, fun hk hl => ⟨fun hbad => ?_, fun p hp => ?_⟩,
    fun hk hl => ⟨fun hbad => ?_, fun i x hi hx => ?_⟩, fun hk hl => ⟨fun hbad => ?_, fun h₁ h₂ h₃ => ?_⟩, fun hk hl => ?_⟩
  · exact exec_readOutlet hs hk hl (atOutlet_error (s := s.dequeue rest) _ hst)
  · refine ⟨outletBytes c s, outletBytes_length c s, exec_readOutlet hs hk hl (readOutlet_answers hc), rfl,
      readWord_outletBytes_est c s, fun o ho => readWord_outletBytes_grant ho, ?_⟩
    intro claim place demand p motion tier hp hstill hmove hclosing hopening hunqueued hplace hfree hheld habsent hcurrent
      hstale
    have hposition : place = positionBytes c s := by
      rw [hplace, eq_motionCode hstill hmove, eq_tierCode hclosing hopening hunqueued, hp]
      rfl
    obtain rfl := eq_claimBytes hfree hheld
    obtain rfl := eq_demandBytes habsent hcurrent hstale
    refine ⟨fun ho => ?_, ?_⟩
    · rw [hposition]
      simp only [outletBytes, ho]
      rfl
    · intro o state feeder profiles ho h1 h2 h3 h4 h5 h6 h7 hf0 hf1 hf2 hprofiles
      rw [hposition, hprofiles, eq_stateCode h1 h2 h3 h4 h5 h6 h7, eq_feederCode hf0 hf1 hf2]
      simp [outletBytes, recordBytes, dynamicBytes, curtailBytes, fixedBytes, profileBytes, ho]
  · exact exec_readPool hs hk hl (readPool_refuses hbad)
  · refine ⟨poolBytes p s, poolBytes_length p s, exec_readPool hs hk hl (readPool_answers hp), poolBytes_head p s,
      readWord_poolBytes_c p s, ?_⟩
    intro r x first behind totals hr hx hfirst hbehind htotals
    subst hr hx hfirst hbehind htotals
    refine ⟨fun hsteam => ?_, fun h y feeder hhw hy hnone hsome => ?_⟩
    · subst hsteam
      simp [poolBytes, settingsBytes, steamBytes, operatingBytes, figuresBytes]
    · subst hhw hy
      rw [eq_feederBytes hnone hsome]
      simp [poolBytes, settingsBytes, hwBytes, operatingBytes, figuresBytes]
  · exact exec_readProg hs hk hl (readProg_refuses hbad)
  · subst hx
    have hlen := progBytes_length i s
    refine ⟨progBytes i s, hlen, fun hstore => hlen.trans (by rw [(hstore.2 i).2]),
      exec_readProg hs hk hl (readProg_answers hi), rfl, ?_⟩
    intro state phase position settings step h0 h1 h2 h3 h4 h5 h6 hempty hfull hclaiming hreaching hholding hnone hsome hon
      hidle hbusy
    have hposition : position = claimPosition i s := by
      cases hst : (s.slot i).currentStep with
      | none => rw [hnone hst, claimPosition_none hst]
      | some st =>
        obtain ⟨hholder, hwaiter⟩ := hsome st hst
        exact eq_claimPosition hst hholder hwaiter (hon st hst)
    refine ⟨(s.slot i).results.map StepResult.code, List.length_map _, fun k => ?_, ?_⟩
    · have hcode := resultBytes_codes (s.slot i).results k
      exact ⟨hcode _, hcode _, hcode _, hcode _, hcode _, hcode _, hcode _, hcode _, hcode _, hcode _⟩
    · rw [eq_slotStateCode h0 h1 h2 h3 h4 h5 h6, eq_settingsPart hempty hfull,
        eq_stepPart hclaiming hreaching hholding hposition hidle hbusy]
      rfl
  · exact exec_readSensors hs hk hl (readSensors_refuses hbad)
  · refine ⟨sensorsData (readByte f.payload 0) (readByte f.payload 1) s, sensorsData_length h₃,
      exec_readSensors hs hk hl (readSensors_answers h₁ h₂ h₃), readWord_be16 (pre := []) ⟨_, rfl⟩ rfl, rfl, ?_,
      fun k i hk hi => ⟨?_, ?_⟩⟩
    · cases hset : s.clock.isSet <;> simp [sensorsData, clockBytes, be16, flagByte, hset]
    · exact readWord_sensorsData hk hi
    · exact readByte_sensorsData hk hi
  · refine ⟨statusBytes s, statusBytes_length s, exec_readStatus hs hk hl, rfl, rfl, fun h => ?_, fun h => ?_, fun h => ?_,
      fun h => ?_, fun b => ?_, ?_, fun c => ⟨fun ho => ?_, fun o ho => ⟨fun h => ?_, fun h => ?_, fun h => ?_, fun h => ?_,
      fun h => ?_⟩⟩, ?_⟩
    · rw [getElem?_statusBytes_speed, h]; rfl
    · rw [getElem?_statusBytes_speed, h]; rfl
    · rw [getElem?_statusBytes_speed, h]; rfl
    · rw [getElem?_statusBytes_speed, h]; rfl
    · rw [readByte_statusBytes_banks, Nat.testBit_ofBits_lt _ _ b.isLt]
    · rw [readByte_statusBytes_banks]; exact Nat.ofBits_lt_two_pow _
    · rw [getElem?_statusBytes_fault, lastFaultByte, ho]
    · rw [getElem?_statusBytes_present ho, h]; rfl
    · rw [getElem?_statusBytes_present ho, h]; rfl
    · rw [getElem?_statusBytes_present ho, h]; rfl
    · rw [getElem?_statusBytes_present ho, h]; rfl
    · rw [getElem?_statusBytes_present ho, h]; rfl
    · intro i r hr
      rw [statusBytes_range, hr]
      rfl

end Sys2Proof.Machine
end

section
/-! The timers of the records (R35, R64, R78), and the requests and the timer of the Supply Pools (R27 to R34, R36). Each body
has one equation for each outcome; what the command does is that equation on the state with the head frame gone. -/

namespace Sys2Proof.Machine

/-! ### The timers of the records (R35, R64, R78) -/

theorem timerDue_iff (t : Timer) : timerDue t = true ↔ t = some 0 := by
  simp [timerDue]

/-- A change that leaves the record of the channel as it is changes nothing. -/
theorem modifyOutlet_unchanged {s : State} {c : Channel} {f : Outlet → Outlet} (h : ∀ o, s.outlet c = some o → f o = o) :
    s.modifyOutlet c f = s := by
  cases ho : s.outlet c with
  | none => exact modifyOutlet_absent f ho
  | some o =>
    rw [modifyOutlet_present f ho, h o ho, ← ho]
    simp [State.setOutlet, State.outlet]

theorem stalenessTimerExpiry_due {s : State} {c : Channel} {kw : Nat} (h : s.demand c = .current kw 0) :
    stalenessTimerExpiry c s = raise .stale (s.setDemand c (.stale kw)) := by
  simp only [stalenessTimerExpiry, h]

theorem stalenessTimerExpiry_notDue {s : State} {c : Channel} (h : ∀ kw : Nat, s.demand c ≠ .current kw 0) :
    stalenessTimerExpiry c s = s := by
  unfold stalenessTimerExpiry
  split
  · next kw hd => exact absurd hd (h kw)
  all_goals rfl

theorem capacityStalenessExpiry_eq (s : State) : capacityStalenessExpiry s =
    if s.pools.steamPart.capTimer = some 0 then
      raise .stale (s.setSteamPart { s.pools.steamPart with capStale := true, capTimer := none })
    else s := by
  simp only [capacityStalenessExpiry, timerDue_iff]

theorem warmTimerExpiry_due {s : State} {c : Channel} {o : Outlet} (ho : s.outlet c = some o) (hw : o.state = .warming)
    (ht : o.warmTimer = some 0) : warmTimerExpiry c s = s.setOutlet c (some (endWarmUp o)) := by
  rw [warmTimerExpiry, modifyOutlet_present _ ho, if_pos ⟨hw, (timerDue_iff _).2 ht⟩]

theorem warmTimerExpiry_notDue {s : State} {c : Channel}
    (h : ∀ o : Outlet, s.outlet c = some o → o.state ≠ .warming ∨ o.warmTimer ≠ some 0) : warmTimerExpiry c s = s := by
  refine modifyOutlet_unchanged fun o ho => if_neg fun ⟨hw, ht⟩ => ?_
  exact (h o ho).elim (absurd hw) (absurd ((timerDue_iff _).1 ht))

/-- Settles O30, by the three timers, each due and not due. -/
theorem recordTimersExpire : Obligations.RecordTimersExpire := by
  unfold Obligations.RecordTimersExpire
  intro s hs
  have staleness (c : Channel) : exec (.stalenessTimerExpiry c) s = .next (stalenessTimerExpiry c s) := running_next _ s hs
  have capacity : exec .capacityStalenessExpiry s = .next (capacityStalenessExpiry s) := running_next _ s hs
  have warm (c : Channel) : exec (.warmTimerExpiry c) s = .next (warmTimerExpiry c s) := running_next _ s hs
  refine ⟨fun c kw h => ?_, fun c h => ?_, fun h => ?_, fun h => ?_, fun c o ho hw ht => ?_, fun c h => ?_⟩
  · rw [staleness, stalenessTimerExpiry_due h]
  · rw [staleness, stalenessTimerExpiry_notDue h]
  · rw [capacity, capacityStalenessExpiry_eq, if_pos h]; rfl
  · rw [capacity, capacityStalenessExpiry_eq, if_neg h]
  · rw [warm, warmTimerExpiry_due ho hw ht]; rfl
  · rw [warm, warmTimerExpiry_notDue h]

/-! ### SUPPLY and PROFILE-SWAP (R34, R36) -/

theorem exec_supply {s t : State} {f : Frame} {rest : List Frame} {a : Answer} (h : s.takes f rest) (hk : f.kind = 0x0A)
    (hl : f.payload.length = 2) (hb : supply f.payload (s.dequeue rest) = (a, t)) :
    exec .supply s = .next (t.answered f a) :=
  request_answers h (requestRow_of_kind hk (by decide)) (by simp [fits, hl]) hb

theorem exec_profileSwap {s t : State} {f : Frame} {rest : List Frame} {a : Answer} (h : s.takes f rest) (hk : f.kind = 0x09)
    (hl : f.payload.length = 1) (hb : profileSwap f.payload (s.dequeue rest) = (a, t)) :
    exec .profileSwap s = .next (t.answered f a) :=
  request_answers h (requestRow_of_kind hk (by decide)) (by simp [fits, hl]) hb

theorem doneStatus_decide (q : Prop) [Decidable q] : doneStatus (decide q) = if q then .doneClamped else .done := by
  by_cases h : q <;> simp [doneStatus, h]

theorem supply_eq (p : List Byte) (s : State) : supply p s =
    (⟨if 8000 < readWord p 0 then .doneClamped else .done, []⟩, s.setSteamPart { s.pools.steamPart with
      cd := min (readWord p 0) 8000, capStale := false, capTimer := some s.pools.steamPart.settings.capStaleS }) := by
  rw [supply, doneStatus_decide]
  rfl

theorem profileSwap_badPool {p : List Byte} (s : State) (h : 3 ≤ readByte p 0) : profileSwap p s = (.refuse .range, s) := by
  simp [profileSwap, poolOf_eq_none h]

theorem profileSwap_eq {p : List Byte} {pool : Pool} (s : State) (h : poolOf (readByte p 0) = some pool) :
    profileSwap p s = if (s.pool pool).swapPending = true then (.refuse .pending, s)
      else (⟨.done, []⟩, s.setPool pool { s.pool pool with swapPending := true }) := by
  simp only [profileSwap, h]

/-- Settles O31: SUPPLY writes always, PROFILE-SWAP behind its two checks. -/
theorem supplyAndSwapWriteTheirFields : Obligations.SupplyAndSwapWriteTheirFields := by
  unfold Obligations.SupplyAndSwapWriteTheirFields
  intro s f rest hs
  refine ⟨fun hk hl => exec_supply hs hk hl (supply_eq f.payload (s.dequeue rest)), fun hk hl => ⟨fun hbad => ?_,
    fun p hp => ⟨fun hpending => ?_, fun hpending => ?_⟩⟩⟩
  · exact exec_profileSwap hs hk hl (profileSwap_badPool (s.dequeue rest) hbad)
  · refine exec_profileSwap hs hk hl ((profileSwap_eq (s.dequeue rest) hp).trans (if_pos ?_))
    rwa [State.dequeue_pool]
  · rw [← State.dequeue_pool s rest]
    refine exec_profileSwap hs hk hl ((profileSwap_eq (s.dequeue rest) hp).trans (if_neg ?_))
    simp [hpending]

/-! ### The round timer and REBALANCE (R32, R33) -/

theorem roundTimerExpiry_eq (p : Pool) (s : State) :
    roundTimerExpiry p s = if (s.pool p).roundTimer = some 0 then runRound p s else s := by
  simp only [roundTimerExpiry, timerDue_iff]

theorem exec_rebalance {s t : State} {f : Frame} {rest : List Frame} {a : Answer} (h : s.takes f rest) (hk : f.kind = 0x0B)
    (hl : f.payload.length = 1) (hb : rebalance f.payload (s.dequeue rest) = (a, t)) :
    exec .rebalance s = .next (t.answered f a) :=
  request_answers h (requestRow_of_kind hk (by decide)) (by simp [fits, hl]) hb

theorem rebalance_badPool {p : List Byte} (s : State) (h : 3 ≤ readByte p 0) : rebalance p s = (.refuse .range, s) := by
  simp [rebalance, poolOf_eq_none h]

theorem rebalance_eq {p : List Byte} {pool : Pool} (s : State) (h : poolOf (readByte p 0) = some pool) :
    rebalance p s = if (s.pool pool).settings.enable = true then
        (⟨.done, be16 ((runRound pool s).pool pool).figures.c ++ be16 ((runRound pool s).pool pool).totals.sumGrant⟩,
          runRound pool s)
      else (.refuse .state, s) := by
  simp only [rebalance, h]

/-- Settles O36: the timer by whether it is due, REBALANCE behind its two checks. -/
theorem roundsRunOnTimerAndRebalance : Obligations.RoundsRunOnTimerAndRebalance := by
  unfold Obligations.RoundsRunOnTimerAndRebalance
  refine ⟨fun s p hs => ?_, fun s f rest hs hk hl => ⟨fun hbad => ?_, fun p hp => ⟨fun hen => ?_, fun hen => ⟨_, rfl, ?_⟩⟩⟩⟩
  · have timer : exec (.roundTimerExpiry p) s = .next (roundTimerExpiry p s) := running_next _ s hs
    rw [timer, roundTimerExpiry_eq]
    exact ⟨fun h => by rw [if_pos h], fun h => by rw [if_neg h]⟩
  · exact exec_rebalance hs hk hl (rebalance_badPool (s.dequeue rest) hbad)
  · exact exec_rebalance hs hk hl ((rebalance_eq (s.dequeue rest) hp).trans (if_neg (by simp [hen])))
  · exact exec_rebalance hs hk hl ((rebalance_eq (s.dequeue rest) hp).trans (if_pos (by simp [hen])))

/-! ### POOL-SET (R27 to R31) -/

theorem flagOf_toNat (en : Bool) : flagOf en.toNat = some en := by
  cases en <;> rfl

/-- The length of a POOL-SET is 16 for STEAM, 14 for an HW pool, and either for an unknown pool. -/
theorem fits_poolSet {p : List Byte} (h : p.length = 16 ∧ (readByte p 0 = 0 ∨ 3 ≤ readByte p 0) ∨
    p.length = 14 ∧ (readByte p 0 = 1 ∨ readByte p 0 = 2 ∨ 3 ≤ readByte p 0)) : fits .poolSet p = true := by
  unfold fits
  simp only
  split <;> (simp only [beq_iff_eq, Bool.or_eq_true]; omega)

theorem exec_poolSet {s t : State} {f : Frame} {rest : List Frame} {a : Answer} (h : s.takes f rest) (hk : f.kind = 0x08)
    (hfit : fits .poolSet f.payload = true) (hb : poolSet f.payload (s.dequeue rest) = (a, t)) :
    exec .poolSet s = .next (t.answered f a) :=
  request_answers h (requestRow_of_kind hk (by decide)) hfit hb

theorem poolSet_badCode {p : List Byte} (s : State) (h : 3 ≤ readByte p 0 ∨ 2 ≤ readByte p 1) :
    poolSet p s = (.refuse .range, s) := by
  unfold poolSet
  rcases h with h | h
  · simp [poolOf_eq_none h]
  · rw [flagOf_eq_none h]
    rcases poolOf (readByte p 0) with _ | _ | _ <;> rfl

theorem poolSet_steam {p : List Byte} {en : Bool} (s : State) (hpool : readByte p 0 = 0) (hen : readByte p 1 = en.toNat) :
    poolSet p s = poolSetSteam p en s := by
  simp [poolSet, hpool, hen, flagOf_toNat, poolOf]

theorem poolSet_hw {p : List Byte} {h : HwPool} {en : Bool} (s : State) (hpool : poolOf (readByte p 0) = some (.hw h))
    (hen : readByte p 1 = en.toNat) : poolSet p s = poolSetHw h p en s := by
  simp [poolSet, hpool, hen, flagOf_toNat]

/-- DONE where both groups of settings are stored as they came. -/
theorem doneStatus_or_decide_ne {α β : Type} [DecidableEq α] [DecidableEq β] (a b : α) (x y : β) :
    doneStatus (decide (a ≠ b) || decide (x ≠ y)) = if a = b ∧ x = y then .done else .doneClamped := by
  by_cases h : a = b <;> by_cases h' : x = y <;> simp [doneStatus, h, h']

theorem poolSetSteam_refuses {p : List Byte} (en : Bool) (s : State)
    (h : (clampSteam (readSteam p)).pLow ≤ (clampSteam (readSteam p)).pTrip) :
    poolSetSteam p en s = (.refuse .range, s) := by
  simp only [poolSetSteam, if_neg (Nat.not_lt.2 h)]

theorem poolSetSteam_stores {p : List Byte} (en : Bool) (s : State)
    (h : (clampSteam (readSteam p)).pTrip < (clampSteam (readSteam p)).pLow) :
    poolSetSteam p en s =
      (⟨if clampSettings (readSettings p en) = readSettings p en ∧ clampSteam (readSteam p) = readSteam p then .done
        else .doneClamped, []⟩,
      applyEnable .steam s.pools.steam.settings.enable en
        ((s.setPool .steam { s.pools.steam with settings := clampSettings (readSettings p en) }).setSteamPart
          { s.pools.steamPart with settings := clampSteam (readSteam p) })) := by
  simp only [poolSetSteam, if_pos h, doneStatus_or_decide_ne]
  rfl

/-- ENABLE as it was sets nothing off (R30, R31). -/
theorem applyEnable_same (p : Pool) (en : Bool) (s : State) : applyEnable p en en s = s := by
  cases en <;> rfl

/-- Settles O32: the codes, then the check of the clamped pressures, then the store and the change of ENABLE. -/
theorem poolSetStoresSteamSettings : Obligations.PoolSetStoresSteamSettings := by
  unfold Obligations.PoolSetStoresSteamSettings
  intro s f rest hs hk hl
  refine ⟨fun hbad => ?_, fun en raw set rawX x hpool hen hraw hset hrawX hx => ?_⟩
  · refine exec_poolSet hs hk (fits_poolSet (.inl ⟨hl, (hbad.imp_right And.left).symm⟩)) ?_
    exact poolSet_badCode (s.dequeue rest) (hbad.imp_right And.right)
  obtain rfl : raw = readSettings f.payload en := hraw
  obtain rfl : set = clampSettings (readSettings f.payload en) := hset
  obtain rfl : rawX = readSteam f.payload := hrawX
  obtain rfl : x = clampSteam (readSteam f.payload) := hx
  have hfit : fits .poolSet f.payload = true := fits_poolSet (.inl ⟨hl, .inl hpool⟩)
  have hbody := poolSet_steam (s.dequeue rest) hpool hen
  refine ⟨fun hle => exec_poolSet hs hk hfit (hbody.trans (poolSetSteam_refuses en _ hle)), fun hlt => ⟨_, _, rfl, rfl, ?_⟩⟩
  have hexec := exec_poolSet hs hk hfit (hbody.trans (poolSetSteam_stores en _ hlt))
  refine ⟨fun hsame => ?_, fun hwas his => ?_, fun hwas his => ?_⟩
  · rw [State.dequeue_pools, hsame, applyEnable_same] at hexec
    exact hexec
  · rw [State.dequeue_pools, hwas] at hexec
    subst his
    exact hexec
  · rw [State.dequeue_pools, hwas] at hexec
    subst his
    exact hexec

/-! ### The feeder of an HW pool (R27, R29) -/

theorem HwPool.eq_other {h other : HwPool} (hne : other ≠ h) : other = HwPool.other h := by
  cases h with
  | hw1 =>
    cases other with
    | hw1 => exact absurd rfl hne
    | hw2 => rfl
  | hw2 =>
    cases other with
    | hw1 => rfl
    | hw2 => exact absurd rfl hne

theorem feederOperand_none (h : HwPool) {addr : Nat} (s : State) (ha : addr = 0xFFFF) :
    feederOperand h addr s = .ok none :=
  if_pos ha

theorem feederOperand_untranslated (h : HwPool) {addr : Nat} {s : State} {st : Status} (ha : addr ≠ 0xFFFF)
    (ht : translate s.xlat addr = .error st) : feederOperand h addr s = .error st := by
  simp only [feederOperand, if_neg ha, ht]

theorem feederOperand_conflict {h : HwPool} {addr : Nat} {s : State} {c : Channel} (ha : addr ≠ 0xFFFF)
    (ht : translate s.xlat addr = .ok c)
    (hc : s.outlet c = none ∨ (∃ o : Outlet, s.outlet c = some o ∧ o.fixed.pool ≠ .steam) ∨
      (s.hwPart (HwPool.other h)).feeder = some c ∨ ((s.claim c).holder ≠ none ∧ (s.hwPart h).feeder ≠ some c)) :
    feederOperand h addr s = .error .conflict := by
  simp only [feederOperand, if_neg ha, ht]
  cases ho : s.outlet c with
  | none => rfl
  | some o =>
    simp only
    split
    · rfl
    · next hsteam =>
      split
      · rfl
      · next hother =>
        refine if_pos ?_
        obtain hc | ⟨o', ho', hp⟩ | hc | ⟨hh, hf⟩ := hc
        · simp [ho] at hc
        · obtain rfl : o = o' := by simpa [ho] using ho'
          exact absurd hp hsteam
        · exact absurd hc hother
        · exact ⟨Option.isSome_iff_ne_none.2 hh, hf⟩

theorem feederOperand_accepts {h : HwPool} {addr : Nat} {s : State} {c : Channel} {o : Outlet} (ha : addr ≠ 0xFFFF)
    (ht : translate s.xlat addr = .ok c) (ho : s.outlet c = some o) (hsteam : o.fixed.pool = .steam)
    (hother : (s.hwPart (HwPool.other h)).feeder ≠ some c)
    (hfree : (s.claim c).holder = none ∨ (s.hwPart h).feeder = some c) : feederOperand h addr s = .ok (some c) := by
  have hclaim : ¬((s.claim c).holder.isSome = true ∧ (s.hwPart h).feeder ≠ some c) := by
    rcases hfree with hh | hf
    · simp [hh]
    · simp [hf]
  simp only [feederOperand, if_neg ha, ht, ho, hsteam, hother, hclaim, if_false, ne_eq, not_true]

/-- A designation in two steps, behind a release of the old feeder that leaves `u` (R29). -/
theorem designate_steps (h : HwPool) (old new : Option Channel) (t : State) : ∃ u : State,
    (old = new → u = t ∧ designate h old new t = t) ∧
    (old ≠ new → (old = none → u = t) ∧
      (∀ a : Channel, old = some a → u = t.modifyOutlet a fun o => { o with feederOf := none, feederDemand := 0 }) ∧
      (new = none → designate h old new t = u) ∧
      (∀ c : Channel, new = some c →
        designate h old new t = u.modifyOutlet c fun o => { o with feederOf := some h, feederDemand := 0 })) := by
  by_cases heq : old = new
  · exact ⟨t, fun _ => ⟨rfl, if_pos heq⟩, absurd heq⟩
  · refine ⟨old.elim t fun a => t.modifyOutlet a releaseFeeder, fun h => absurd h heq, fun _ => ⟨?_, ?_, ?_, ?_⟩⟩
    · rintro rfl; rfl
    · rintro a rfl; rfl
    · rintro rfl; cases old <;> exact if_neg heq
    · rintro c rfl; cases old <;> exact if_neg heq

theorem poolSetHw_refuses {h : HwPool} {p : List Byte} {s : State} {st : Status} (en : Bool)
    (hf : feederOperand h (readWord p 7) s = .error st) : poolSetHw h p en s = (.refuse st, s) := by
  simp only [poolSetHw, hf]

theorem poolSetHw_stores {h : HwPool} {p : List Byte} {s : State} {new : Option Channel} (en : Bool)
    (hf : feederOperand h (readWord p 7) s = .ok new) :
    poolSetHw h p en s =
      (⟨if clampSettings (readSettings p en) = readSettings p en ∧ clampHw (readHw p new) = readHw p new then .done
        else .doneClamped, []⟩,
      applyEnable (.hw h) (s.pool (.hw h)).settings.enable en (designate h (s.hwPart h).feeder new
        ((s.setPool (.hw h) { s.pool (.hw h) with settings := clampSettings (readSettings p en) }).setHwPart h
          (clampHw (readHw p new))))) := by
  simp only [poolSetHw, hf, doneStatus_or_decide_ne]

/-- The pool codes of the HW pools. -/
theorem poolOf_hw {n : Nat} {h : HwPool} (hn : poolOf n = some (.hw h)) : n = 1 ∨ n = 2 := by
  unfold poolOf at hn
  split at hn
  · cases hn
  · exact .inl rfl
  · exact .inr rfl
  · cases hn

/-- Settles O33: the codes, then the checks of FEEDER, then the store, the designation and the change of ENABLE. -/
theorem poolSetDesignatesFeeder : Obligations.PoolSetDesignatesFeeder := by
  unfold Obligations.PoolSetDesignatesFeeder
  refine ⟨fun s f rest hs hk hl hbad => ?_, fun s f rest h other en hs hk hl hpool hen hother => ?_⟩
  · refine exec_poolSet hs hk (fits_poolSet (.inr ⟨hl, by omega⟩)) ?_
    exact poolSet_badCode (s.dequeue rest) (hbad.imp_right And.right)
  obtain rfl := HwPool.eq_other hother
  have hfit : fits .poolSet f.payload = true := fits_poolSet (.inr ⟨hl, by have := poolOf_hw hpool; omega⟩)
  have hbody := poolSet_hw (s.dequeue rest) hpool hen
  have refuses {st : Status} (hf : feederOperand h (readWord f.payload 7) (s.dequeue rest) = .error st) :
      exec .poolSet s = .next (s.refused f rest st) :=
    exec_poolSet hs hk hfit (hbody.trans (poolSetHw_refuses en hf))
  refine ⟨fun ha => ⟨fun st ht => refuses (feederOperand_untranslated h ha ht), fun c ht hc =>
    refuses (feederOperand_conflict ha ht (by simpa using hc))⟩, fun new raw set rawX x hnew hraw hset hrawX hx => ?_⟩
  have hfeeder : feederOperand h (readWord f.payload 7) (s.dequeue rest) = .ok new := by
    obtain ⟨ha, rfl⟩ | ⟨ha, c, o, rfl, ht, ho, hsteam, hfo, hfree⟩ := hnew
    · exact feederOperand_none h _ ha
    · exact feederOperand_accepts ha ht ho hsteam (by simpa using hfo) (by simpa using hfree)
  have hexec := exec_poolSet hs hk hfit (hbody.trans (poolSetHw_stores en hfeeder))
  rw [State.dequeue_pool, State.dequeue_hwPart] at hexec
  obtain rfl : raw = readSettings f.payload en := hraw
  obtain rfl : set = clampSettings (readSettings f.payload en) := hset
  obtain rfl : rawX = readHw f.payload new := hrawX
  obtain rfl : x = clampHw (readHw f.payload new) := hx
  obtain ⟨u, hsame, hchange⟩ := designate_steps h (s.hwPart h).feeder new (((s.dequeue rest).setPool (.hw h)
    { s.pool (.hw h) with settings := clampSettings (readSettings f.payload en) }).setHwPart h
      (clampHw (readHw f.payload new)))
  refine ⟨_, u, _, _, rfl, hsame, hchange, rfl, fun hkept => ?_, fun hwas his => ?_, fun hwas his => ?_⟩
  · rw [hkept, applyEnable_same] at hexec
    exact hexec
  · rw [hwas, his] at hexec
    subst his
    exact hexec
  · rw [hwas, his] at hexec
    subst his
    exact hexec

end Sys2Proof.Machine
end

section
/-! What a round computes from its inputs: the demand stage (R47, R51 to R53) and the capacity figures (R38 to R43). -/

namespace Sys2Proof.Machine

/-! ### Participants (R47) -/

/-- The participants of a round are the entries of the pool's eligible outlets. -/
theorem mem_participants {p : Pool} {s : State} {q : Part} : q ∈ participants p s ↔
    ∃ o : Outlet, s.outlet q.ch = some o ∧ o.fixed.pool = p ∧ o.state.eligible = true ∧ q = partOf q.ch o s := by
  unfold participants
  rw [List.mem_filterMap]
  constructor
  · rintro ⟨c, -, hc⟩
    cases ho : s.outlet c with
    | none => simp [ho] at hc
    | some o =>
      simp only [ho, Option.ite_none_right_eq_some, Option.some.injEq] at hc
      obtain ⟨⟨hp, he⟩, rfl⟩ := hc
      exact ⟨o, ho, hp, he, rfl⟩
  · rintro ⟨o, ho, hp, he, hq⟩
    exact ⟨q.ch, mem_indices _, by simp only [ho, hp, he, and_self, if_true, ← hq]⟩

theorem indices_pairwise_lt (n : Nat) : (indices n).Pairwise (fun a b => a < b) := by
  rw [indices_eq_finRange]
  exact List.pairwise_lt_finRange n

theorem participants_ascending (p : Pool) (s : State) : (participants p s).Pairwise (fun a b => a.ch < b.ch) := by
  have channel {c : Channel} {q : Part} (h : (match s.outlet c with
      | some o => if o.fixed.pool = p ∧ o.state.eligible = true then some (partOf c o s) else none
      | none => none) = some q) : q.ch = c := by
    cases ho : s.outlet c with
    | none => simp [ho] at h
    | some o =>
      simp only [ho, Option.ite_none_right_eq_some, Option.some.injEq] at h
      rw [← h.2]
      rfl
  unfold participants
  refine List.Pairwise.filterMap _ ?_ (indices_pairwise_lt 48)
  intro c c' hlt q hq q' hq'
  rw [channel hq, channel hq']
  exact hlt

theorem OutletState.eligible_iff (st : OutletState) : st.eligible = true ↔ st = .idle ∨ st = .warming ∨ st = .serving := by
  cases st <;> simp [OutletState.eligible]

/-! ### The demand stage (R51 to R53) -/

/-- The active set of an outlet of the pool is the one its active bank names (R3). -/
theorem eq_activeProfile {s : State} {o : Outlet} {x : Profile} (ha : (s.pool o.fixed.pool).activeBank = .a → x = o.setA)
    (hb : (s.pool o.fixed.pool).activeBank = .b → x = o.setB) : x = s.activeProfile o := by
  unfold State.activeProfile
  cases hbank : (s.pool o.fixed.pool).activeBank with
  | a => exact ha hbank
  | b => exact hb hbank

/-- The raw demand is that of the first source there is (R51). -/
theorem eq_rawDemand {s : State} {c : Channel} {o : Outlet} {d : Nat}
    (hclaim : ∀ h : Holder, (s.claim c).holder = some h → d = h.kw)
    (hfeeder : (s.claim c).holder = none → o.feederOf ≠ none → d = o.feederDemand)
    (hhost : (s.claim c).holder = none → o.feederOf = none → (∀ kw n : Nat, s.demand c = .current kw n → d = kw) ∧
      (∀ kw : Nat, s.demand c = .stale kw → d = o.fixed.fallbackKw) ∧ (s.demand c = .absent → d = 0)) :
    d = rawDemand c o s := by
  unfold rawDemand
  cases hh : (s.claim c).holder with
  | some h => exact hclaim h hh
  | none =>
    cases hf : o.feederOf with
    | some k => exact hfeeder hh (by simp [hf])
    | none =>
      obtain ⟨hcurrent, hstale, habsent⟩ := hhost hh hf
      cases hd : s.demand c with
      | absent => exact habsent hd
      | current kw n => exact hcurrent kw n hd
      | stale kw => exact hstale kw hd

theorem effectiveDemand_warmLimited {o : Outlet} {x : Profile} (d : Nat) (hp : o.fixed.pool = .steam)
    (hs : o.state = .idle ∨ o.state = .warming) (hw : 0 < x.warmKw) :
    effectiveDemand o x d = min (min d (min x.maxKw o.fixed.ratedKw)) x.warmKw := by
  have : warmLimited o x = true := by simp [warmLimited, hp, hs, hw]
  simp [effectiveDemand, this]

theorem effectiveDemand_unlimited {o : Outlet} {x : Profile} (d : Nat)
    (h : o.fixed.pool ≠ .steam ∨ o.state = .serving ∨ x.warmKw = 0) :
    effectiveDemand o x d = min d (min x.maxKw o.fixed.ratedKw) := by
  have : warmLimited o x = false := by
    rcases h with h | h | h <;> simp [warmLimited, h]
  simp [effectiveDemand, this]

theorem roundClass_claimed {s : State} {c : Channel} {h : Holder} {st : Step} (o : Outlet)
    (hh : (s.claim c).holder = some h) (hst : (s.slot h.slot).steps[h.step - 1]? = some st) : roundClass c o s = st.cls := by
  simp [roundClass, hh, hst]

theorem roundClass_free {s : State} {c : Channel} (o : Outlet) (hh : (s.claim c).holder = none) :
    roundClass c o s = (s.activeProfile o).cls := by
  simp [roundClass, hh]

/-! ### The capacity figures (R38 to R43) -/

/-- H is the sum of the assumed draws over all channels, limited to 8000 (R43). -/
theorem assumedDraws_eq (p : Pool) (s : State) : assumedDraws p s = min 8000 (∑ c : Channel, match s.outlet c with
    | some o => if o.fixed.pool = p then o.assumedDraw else 0
    | none => 0) := by
  rw [assumedDraws, indices_eq_finRange, ← Fin.sum_univ_def]
  rfl

theorem capacity_steam (s : State) : capacity .steam s = figuresOf (steamBase s.pools.steamPart) 0
    (s.pool .steam).settings.reservePct (pressureFactor s) (assumedDraws .steam s) := rfl

theorem capacity_hw (h : HwPool) (s : State) : capacity (.hw h) s = figuresOf
    (feederTerm h s * (s.hwPart h).coilYieldPct / 100 + storageAllowance h s) (storageAllowance h s)
    (s.pool (.hw h)).settings.reservePct 1000 (assumedDraws (.hw h) s) := rfl

/-- C and H of every pool follow from the pool's B and K and its assumed draws (R41, R43). -/
theorem capacity_c (p : Pool) (s : State) : (capacity p s).c = min 8000
    ((capacity p s).b * (100 - (s.pool p).settings.reservePct) / 100 * (capacity p s).k / 1000 - (capacity p s).h) := by
  cases p <;> rfl

theorem capacity_h (p : Pool) (s : State) : (capacity p s).h = assumedDraws p s := by
  cases p <;> rfl

theorem pressureFactor_faulted {s : State} (h : (s.sensor headerInput).faulted = true) :
    pressureFactor s = s.pools.steamPart.settings.pFaultFactor := by
  simp [pressureFactor, h]

/-- K of a good header pressure (R42): 1000 from P_LOW up, 0 up to P_TRIP, and linear between. -/
theorem pressureFactor_good {s : State} {press low trip : Int} (h : (s.sensor headerInput).faulted = false)
    (hpress : press = (s.sensor headerInput).lastGood) (hlow : low = s.pools.steamPart.settings.pLow)
    (htrip : trip = s.pools.steamPart.settings.pTrip) (hlt : trip < low) :
    (low ≤ press → pressureFactor s = 1000) ∧ (press ≤ trip → pressureFactor s = 0) ∧
    (trip < press → press < low → (pressureFactor s : Int) = (press - trip) * 1000 / (low - trip)) := by
  have hk : pressureFactor s = if low ≤ press then 1000 else if press ≤ trip then 0
      else (press.toNat - s.pools.steamPart.settings.pTrip) * 1000 /
        (s.pools.steamPart.settings.pLow - s.pools.steamPart.settings.pTrip) := by
    simp only [pressureFactor, h, hpress, hlow, htrip]
    rfl
  refine ⟨fun hge => ?_, fun hle => ?_, fun hgt hpl => ?_⟩
  · rw [hk, if_pos hge]
  · rw [hk, if_neg (by omega), if_pos hle]
  · have hnum : ((press.toNat - s.pools.steamPart.settings.pTrip : Nat) : Int) = press - trip := by omega
    have hden : ((s.pools.steamPart.settings.pLow - s.pools.steamPart.settings.pTrip : Nat) : Int) = low - trip := by omega
    rw [hk, if_neg (by omega), if_neg (by omega), Int.natCast_ediv, Int.natCast_mul, hnum, hden]
    rfl

theorem feederTerm_none {h : HwPool} {s : State} (hf : (s.hwPart h).feeder = none) : feederTerm h s = 0 := by
  simp [feederTerm, hf]

theorem feederTerm_ineligible {h : HwPool} {s : State} {c : Channel} (hf : (s.hwPart h).feeder = some c)
    (he : s.isEligible c = false) : feederTerm h s = 0 := by
  simp only [feederTerm, hf]
  cases ho : s.outlet c with
  | none => rfl
  | some o => simp [← isEligible_present ho, he]

theorem feederTerm_eligible {h : HwPool} {s : State} {c : Channel} {o : Outlet} (hf : (s.hwPart h).feeder = some c)
    (ho : s.outlet c = some o) (he : o.state.eligible = true) : feederTerm h s = o.grant := by
  simp [feederTerm, hf, ho, he]

/-- Settles O35: the demand stage, then the figures of STEAM and of the HW pools. -/
theorem capacityFollowsInputs : Obligations.CapacityFollowsInputs := by
  unfold Obligations.CapacityFollowsInputs
  refine ⟨fun s p => ⟨participants_ascending p s, fun c => ⟨?_, ?_⟩, fun q o x d hq ho ha hb hclaim hfeeder hhost => ?_⟩,
    fun s => ⟨fun p => ⟨capacity_c p s, (capacity_h p s).trans (assumedDraws_eq p s)⟩, ⟨fun h => ?_, fun h => ?_, rfl⟩,
      fun h => pressureFactor_faulted h, fun h press low trip hpress hlow htrip hlt =>
        pressureFactor_good h hpress hlow htrip hlt, fun h store h49 h50 => ?_⟩⟩
  · rintro ⟨q, hq, rfl⟩
    obtain ⟨o, ho, hp, he, -⟩ := mem_participants.1 hq
    exact ⟨o, ho, hp, (OutletState.eligible_iff _).1 he⟩
  · rintro ⟨o, ho, hp, hs⟩
    exact ⟨partOf c o s, mem_participants.2 ⟨o, ho, hp, (OutletState.eligible_iff _).2 hs, rfl⟩, rfl⟩
  · obtain ⟨o', ho', rfl, -, hpart⟩ := mem_participants.1 hq
    obtain rfl : o = o' := by simpa [ho] using ho'
    obtain rfl := eq_activeProfile ha hb
    obtain rfl := eq_rawDemand hclaim hfeeder hhost
    rw [hpart]
    exact ⟨effectiveDemand_warmLimited _, effectiveDemand_unlimited _, rfl, rfl, roundClass_free o,
      fun h st => roundClass_claimed o⟩
  · simp [capacity_steam, figuresOf, steamBase, h]
  · simp [capacity_steam, figuresOf, steamBase, h]
  · have hstore : store = s.sensor (storageInput h) := by
      cases h with
      | hw1 => exact h49 rfl
      | hw2 => exact h50 rfl
    refine ⟨rfl, by rw [hstore]; rfl, fun hf => ?_, fun c hf => ⟨fun he => ?_, fun o ho he => ?_⟩⟩
    · simp [capacity_hw, figuresOf, feederTerm_none hf]
    · simp [capacity_hw, figuresOf, feederTerm_ineligible hf he]
    · simp [capacity_hw, figuresOf, feederTerm_eligible hf ho he]

end Sys2Proof.Machine
end

section
/-! What the slot grants of one event can do (R100 to R103, R110). A grant reaches the channels of the motion queue and those that
are given targets; it changes an outlet record only where CLIM is active: both limits end it as a BOTH_LIMITS fault (R121), CLIM
alone completes a homing at once (R120). A target given stays unless the outlet so faults. -/

namespace Sys2Proof.Machine

/-! ### What a slot grant makes of an outlet record -/

/-- The record after a BOTH_LIMITS report (R121, R123): none is made for a HELD or FAULTED outlet. -/
def bothLimitsFault (o : Outlet) : Outlet :=
  match o.state with
  | .idle | .warming | .serving => { leaveEligible .faulted o with lastFault := some .bothLimits }
  | .homing => { o with state := .faulted, recovery := false, lastFault := some .bothLimits }
  | .locked => { o with state := .faulted, lastFault := some .bothLimits }
  | .held | .faulted => o

/-- The record after a homing completion (R120). -/
def homedOutlet (o : Outlet) : Outlet :=
  { o with assumedDraw := 0, recovery := false,
           state := if o.state = .homing then (if o.bars.all then .locked else .idle) else o.state }

/-- The record after a slot grant that ends at once with CLIM active, by the level of OLIM. -/
def grantEffect (olim : Bool) (o : Outlet) : Outlet :=
  if olim then bothLimitsFault o else homedOutlet o

theorem homingDone_eq (c : Channel) (s : State) : homingDone c s = s.modifyOutlet c homedOutlet := rfl

theorem bothLimitsFault_of_silent {o : Outlet} (h : o.state = .held ∨ o.state = .faulted) : bothLimitsFault o = o := by
  rcases h with h | h <;> simp [bothLimitsFault, h]

/-- A fault leaves HELD and FAULTED, and takes every other STATE to FAULTED. -/
theorem bothLimitsFault_state (o : Outlet) :
    o.state = .held ∧ bothLimitsFault o = o ∨ (bothLimitsFault o).state = .faulted := by
  cases h : o.state <;> simp [bothLimitsFault, h, leaveEligible]

theorem bothLimitsFault_ineligible (o : Outlet) : (bothLimitsFault o).state.eligible = false := by
  rcases bothLimitsFault_state o with ⟨h, e⟩ | h
  · rw [e, h]; rfl
  · rw [h]; rfl

/-- An effect that has come about comes about once. -/
theorem grantEffect_idem (olim : Bool) (o : Outlet) : grantEffect olim (grantEffect olim o) = grantEffect olim o := by
  cases olim with
  | true =>
    refine bothLimitsFault_of_silent ?_
    rcases bothLimitsFault_state o with ⟨h, e⟩ | h
    · exact .inl (by rw [grantEffect, if_pos rfl, e, h])
    · exact .inr h
  | false =>
    simp only [grantEffect, homedOutlet, Bool.false_eq_true, if_false]
    congr 1
    cases o.state <;> cases o.bars.all <;> rfl

theorem homedOutlet_state_of_eligible {o : Outlet} (h : o.state.eligible = true) : (homedOutlet o).state = o.state := by
  have : o.state ≠ .homing := by rintro e; rw [e] at h; cases h
  simp [homedOutlet, this]

/-! ### The report of both limits -/

theorem faultReport_silent (arb : State → State) {c : Channel} (k : FaultKind) {s : State} {o : Outlet}
    (ho : s.outlet c = some o) (h : o.state = .held ∨ o.state = .faulted) : faultReport arb c k s = s := by
  rcases h with h | h <;> simp [faultReport, ho, h]

theorem faultReport_bothLimits_reported (arb : State → State) {c : Channel} {s : State} {o : Outlet}
    (ho : s.outlet c = some o) (h : ¬(o.state = .held ∨ o.state = .faulted)) :
    faultReport arb c .bothLimits s = failStepsOn c .travel (raise .travel
      ((s.modifyPosition c fun p => { p with known := false }).setOutlet c (some (bothLimitsFault o)))) := by
  refine faultReport_faults ho (fun he _ => ?_) (fun h => ?_) (fun h => ?_) ?_
  · rcases (OutletState.eligible_iff _).1 he with h | h | h <;> simp [bothLimitsFault, h, leaveEligible]
  · simp [bothLimitsFault, h]
  · simp [bothLimitsFault, h]
  · cases hs : o.state <;> simp [hs, OutletState.eligible] at h ⊢

/-- A BOTH_LIMITS report comes to one outlet record, KNOWN, and what the failing steps write (R121, R152). -/
theorem faultReport_bothLimits (arb : State → State) (c : Channel) (s : State) :
    (∀ a, (faultReport arb c .bothLimits s).outlet a = (s.modifyOutlet c bothLimitsFault).outlet a) ∧
    ((faultReport arb c .bothLimits s).drive = s.drive ∨
      (faultReport arb c .bothLimits s).drive = (s.modifyPosition c fun p => { p with known := false }).drive) := by
  cases ho : s.outlet c with
  | none =>
    rw [modifyOutlet_absent _ ho]
    simp [faultReport, ho]
  | some o =>
    by_cases hs : o.state = .held ∨ o.state = .faulted
    · rw [faultReport_silent arb _ ho hs, modifyOutlet_unchanged fun o' ho' => ?_]
      · exact ⟨fun _ => rfl, .inl rfl⟩
      · obtain rfl : o = o' := by simpa [ho] using ho'
        exact bothLimitsFault_of_silent hs
    · obtain ⟨-, -, houtlets, -, -, -, -, hdrive, -⟩ := failStepsOn_frame c .travel (raise .travel
        ((s.modifyPosition c fun p => { p with known := false }).setOutlet c (some (bothLimitsFault o))))
      rw [faultReport_bothLimits_reported arb ho hs, modifyOutlet_present _ ho]
      refine ⟨fun a => ?_, .inr (by simp [hdrive])⟩
      simp only [State.outlet, houtlets, raise_outlets]
      rfl

/-! ### The invariant of the grants of one event -/

/-- TARGET is `x`, and stays so behind a homing completion, which sets a requested homing's TARGET to 0 (R114). -/
def Position.heldAt (p : Position) (x : Nat) : Prop :=
  p.target = some x ∧ (x = 0 ∨ p.homeReq = false)

/-- The state `s` within an event that has come from `b` by targets and slot grants alone: the queue holds channels of `A` alone,
an outlet record stands but for the effect of a grant at a channel of `A`, and each channel of `T`, whose outlet was eligible, keeps
its target `x` while its outlet is eligible. -/
structure State.grantsFrom (b : State) (A T : Set Channel) (x : Channel → Nat) (s : State) : Prop where
  olim : ∀ c, s.olimActive c = b.olimActive c
  clim : ∀ c, s.climActive c = b.climActive c
  queue : ∀ c ∈ s.drive.closing ++ s.drive.opening, c ∈ A
  outlet : ∀ c, s.outlet c = b.outlet c ∨
    c ∈ A ∧ b.climActive c = true ∧ s.outlet c = (b.outlet c).map (grantEffect (b.olimActive c))
  wasEligible : ∀ c ∈ T, b.isEligible c = true
  target : ∀ c ∈ T, s.isEligible c = true → (s.position c).heldAt (x c)

namespace State.grantsFrom

variable {b s : State} {A T : Set Channel} {x : Channel → Nat}

theorem refl (b : State) (x : Channel → Nat) (hq : ∀ c ∈ b.drive.closing ++ b.drive.opening, c ∈ A) :
    State.grantsFrom b A ∅ x b :=
  ⟨fun _ => rfl, fun _ => rfl, hq, fun _ => .inl rfl, fun _ h => h.elim, fun _ h => h.elim⟩

/-- A channel whose outlet is no longer eligible has no target to keep. -/
theorem insert_ineligible {c : Channel} (h : State.grantsFrom b A T x s) (hb : b.isEligible c = true)
    (hs : s.isEligible c = false) : State.grantsFrom b A (insert c T) x s where
  __ := h
  wasEligible d hd := by
    obtain rfl | hd := hd
    · exact hb
    · exact h.wasEligible d hd
  target d hd he := by
    obtain rfl | hd := hd
    · rw [hs] at he; cases he
    · exact h.target d hd he

/-! ### The updates that keep it -/

/-- Any position record, at the price of the channel's target. -/
theorem setPosition (h : State.grantsFrom b A T x s) (c : Channel) (p : Position) :
    State.grantsFrom b A (T \ {c}) x (s.setPosition c p) where
  __ := h
  wasEligible d hd := h.wasEligible d hd.1
  target d hd he := by
    rw [State.position_setPosition, if_neg (fun e => hd.2 e.symm)]
    exact h.target d hd.1 he

/-- A position record with the target given. -/
theorem setTarget (h : State.grantsFrom b A T x s) {c : Channel} {p : Position} (hb : b.isEligible c = true)
    (hp : p.heldAt (x c)) : State.grantsFrom b A (insert c T) x (s.setPosition c p) where
  __ := h
  wasEligible d hd := by
    obtain rfl | hd := hd
    · exact hb
    · exact h.wasEligible d hd
  target d hd he := by
    rw [State.position_setPosition]
    split
    · next e => exact e ▸ hp
    · next e => exact h.target d (hd.resolve_left (Ne.symm e)) he

/-- A position record that holds the target its channel has. -/
theorem modifyPosition (h : State.grantsFrom b A T x s) (c : Channel) (f : Position → Position)
    (hf : ∀ n, (s.position c).heldAt n → (f (s.position c)).heldAt n) :
    State.grantsFrom b A T x (s.modifyPosition c f) where
  __ := h
  target d hd he := by
    rw [State.position_modifyPosition]
    split
    · next e => subst e; exact hf _ (h.target c hd he)
    · exact h.target d hd he

theorem withQueue (h : State.grantsFrom b A T x s) {u v : List Channel} (hq : ∀ c ∈ u ++ v, c ∈ A) :
    State.grantsFrom b A T x (s.withQueue u v) :=
  { h with queue := hq }

theorem addEntry (h : State.grantsFrom b A T x s) (d : MoveDir) {c : Channel} (hc : c ∈ A) :
    State.grantsFrom b A T x (Machine.addEntry d c s) := by
  have hq := h.queue
  simp only [List.mem_append] at hq
  cases d
  · exact h.withQueue (u := s.drive.closing ++ [c]) (v := s.drive.opening) fun a ha => by
      simp only [List.mem_append, List.mem_singleton] at ha
      obtain (ha | rfl) | ha := ha
      exacts [hq a (.inl ha), hc, hq a (.inr ha)]
  · exact h.withQueue (u := s.drive.closing) (v := s.drive.opening ++ [c]) fun a ha => by
      simp only [List.mem_append, List.mem_singleton] at ha
      obtain ha | ha | rfl := ha
      exacts [hq a (.inl ha), hq a (.inr ha), hc]

theorem removeEntry (h : State.grantsFrom b A T x s) (c : Channel) :
    State.grantsFrom b A T x (Machine.removeEntry c s) := by
  rw [removeEntry_eq_withQueue]
  refine h.withQueue fun a ha => h.queue a ?_
  rw [List.mem_append] at ha ⊢
  exact ha.imp (fun ha => (List.mem_filter.1 ha).1) fun ha => (List.mem_filter.1 ha).1

/-- The effect of a grant on the outlet record, of a channel with CLIM active. -/
theorem effect_outlet (h : State.grantsFrom b A T x s) {c : Channel} (hc : c ∈ A) (hclim : b.climActive c = true)
    (d : Channel) : (s.modifyOutlet c (grantEffect (b.olimActive c))).outlet d = b.outlet d ∨
      d ∈ A ∧ b.climActive d = true ∧ (s.modifyOutlet c (grantEffect (b.olimActive c))).outlet d =
        (b.outlet d).map (grantEffect (b.olimActive d)) := by
  rw [State.outlet_modifyOutlet]
  split
  · next e =>
    subst e
    refine .inr ⟨hc, hclim, ?_⟩
    rcases h.outlet c with ho | ⟨-, -, ho⟩
    · rw [ho]
    · rw [ho, Option.map_map]
      exact congrArg (fun g => (b.outlet c).map g) (funext fun o => grantEffect_idem _ o)
  · exact h.outlet d

/-- A homing completed with CLIM active alone. -/
theorem homingDone (h : State.grantsFrom b A T x s) {c : Channel} (hc : c ∈ A) (hclim : b.climActive c = true)
    (holim : b.olimActive c = false) : State.grantsFrom b A T x (Machine.homingDone c s) where
  olim := h.olim
  clim := h.clim
  queue := h.queue
  outlet := by
    have heffect : Machine.homingDone c s = s.modifyOutlet c (grantEffect (b.olimActive c)) := by rw [holim]; rfl
    rw [heffect]
    exact h.effect_outlet hc hclim
  wasEligible := h.wasEligible
  target d hd he := by
    refine h.target d hd ?_
    by_cases e : c = d
    · subst e
      have hb := h.wasEligible c hd
      unfold State.isEligible at hb ⊢
      rcases h.outlet c with ho | ⟨-, -, ho⟩
      · rw [ho]; exact hb
      · rw [ho, holim]
        cases hbo : b.outlet c with
        | none => simp [hbo] at hb
        | some o =>
          simp only [hbo] at hb
          exact (congrArg OutletState.eligible (homedOutlet_state_of_eligible hb)).trans hb
    · rwa [homingDone_eq, State.isEligible, State.outlet_modifyOutlet, if_neg e] at he

/-! ### The operations of the Drive Unit -/

variable {arb : State → State} (ha : ∀ T s, State.grantsFrom b A T x s → State.grantsFrom b A T x (arb s))
include ha

/-- A slot granted with both limits active: the stop drops the channel's target, and the report makes its outlet ineligible. -/
theorem faultStop (h : State.grantsFrom b A T x s) {c : Channel} (hc : c ∈ A) (hclim : b.climActive c = true)
    (holim : b.olimActive c = true) : State.grantsFrom b A T x (Machine.faultStop arb true c .bothLimits s) := by
  have hw := ha _ _ ((h.setPosition c (faultPosition (s.olimActive c) (s.climActive c) (s.position c))).removeEntry c)
  have hstop : Machine.faultStop arb true c .bothLimits s = faultReport arb c .bothLimits (arb (Machine.removeEntry c
      (s.setPosition c (faultPosition (s.olimActive c) (s.climActive c) (s.position c))))) := rfl
  rw [hstop]
  generalize arb (Machine.removeEntry c
    (s.setPosition c (faultPosition (s.olimActive c) (s.climActive c) (s.position c)))) = w at hw
  obtain ⟨houtlet, hdrive⟩ := faultReport_bothLimits arb c w
  have heffect : w.modifyOutlet c bothLimitsFault = w.modifyOutlet c (grantEffect (b.olimActive c)) := by
    rw [holim]; rfl
  have hposition (d : Channel) (hd : d ≠ c) : (faultReport arb c .bothLimits w).position d = w.position d := by
    rcases hdrive with e | e
    · simp only [State.position, e]
    · have : (faultReport arb c .bothLimits w).position d =
          (w.modifyPosition c fun p => { p with known := false }).position d := by simp only [State.position, e]
      rw [this, State.position_modifyPosition, if_neg (Ne.symm hd)]
  refine ⟨?_, ?_, ?_, fun d => ?_, h.wasEligible, fun d hd he => ?_⟩
  · rcases hdrive with e | e <;> simp only [State.olimActive, e] <;> exact hw.olim
  · rcases hdrive with e | e <;> simp only [State.climActive, e] <;> exact hw.clim
  · rcases hdrive with e | e <;> rw [e] <;> exact hw.queue
  · rw [houtlet, heffect]
    exact hw.effect_outlet hc hclim d
  · rw [State.isEligible, houtlet, State.outlet_modifyOutlet] at he
    by_cases e : c = d
    · rw [if_pos e] at he
      cases ho : w.outlet c with
      | none => simp [ho] at he
      | some o => simp [ho, bothLimitsFault_ineligible] at he
    · rw [if_neg e] at he
      rw [hposition d (Ne.symm e)]
      exact hw.target d ⟨hd, Ne.symm e⟩ he

theorem joinQueue (h : State.grantsFrom b A T x s) (d : MoveDir) {c : Channel} (hc : c ∈ A) :
    State.grantsFrom b A T x (Machine.joinQueue arb d c s) := by
  unfold Machine.joinQueue
  split
  · exact h
  · exact ha _ _ (h.addEntry d hc)

theorem applyNeed (h : State.grantsFrom b A T x s) {c : Channel} (hc : c ∈ A) :
    State.grantsFrom b A T x (Machine.applyNeed arb c s) := by
  unfold Machine.applyNeed
  split
  · exact h
  · exact joinQueue ha h _ hc
  · exact h.removeEntry c
  · split
    · exact h
    · exact joinQueue ha (h.removeEntry c) _ hc

theorem reverseMove (h : State.grantsFrom b A T x s) (d : MoveDir) {c : Channel} (hc : c ∈ A) :
    State.grantsFrom b A T x (Machine.reverseMove arb d c s) :=
  joinQueue ha ((ha _ _ (h.modifyPosition c _ fun _ hp => hp)).modifyPosition c _ fun _ hp => hp) d hc

omit ha in
theorem renewMove (h : State.grantsFrom b A T x s) (c : Channel) :
    State.grantsFrom b A T x (Machine.renewMove c s) := by
  refine h.modifyPosition c _ fun n hp => ?_
  split
  · exact hp
  · exact hp

omit ha in
theorem heldAt_completedPosition (m : Move) (est : Nat) (known : Bool) {p : Position} {n : Nat} (hp : p.heldAt n) :
    (completedPosition m est known p).heldAt n := by
  obtain ⟨ht, h0⟩ := hp
  unfold completedPosition
  simp only
  split
  · refine ⟨?_, .inr rfl⟩
    rcases h0 with rfl | hr
    · simp [homedPosition, addTravel, ht]
    · simp [homedPosition, addTravel, ht, hr]
  · exact ⟨ht, h0⟩

theorem completeMove (h : State.grantsFrom b A T x s) (m : Move) (est : Nat) (known : Bool) {c : Channel} (hc : c ∈ A)
    (hm : m.kind = .homing → b.climActive c = true ∧ b.olimActive c = false) :
    State.grantsFrom b A T x (Machine.completeMove arb m est known c s) := by
  have h₁ := ha _ _ (h.modifyPosition c (completedPosition m est known) fun _ => heldAt_completedPosition m est known)
  have h₂ : State.grantsFrom b A T x (if m.kind = .homing then
      Machine.homingDone c (arb (s.modifyPosition c (completedPosition m est known)))
      else arb (s.modifyPosition c (completedPosition m est known))) := by
    split
    · next hk => exact h₁.homingDone hc (hm hk).1 (hm hk).2
    · exact h₁
  unfold Machine.completeMove
  simp only
  split
  · exact h₂
  · split
    · exact joinQueue ha h₂ _ hc
    · exact joinQueue ha (h₂.modifyPosition c _ fun _ hp => hp) _ hc

theorem startMove (h : State.grantsFrom b A T x s) (d : MoveDir) {c : Channel} (hc : c ∈ A) :
    State.grantsFrom b A T x (Machine.startMove arb d c s) := by
  unfold Machine.startMove
  simp only
  rw [h.olim, h.clim]
  split
  · next hboth =>
    rw [Bool.and_eq_true] at hboth
    exact faultStop ha h hc hboth.2 hboth.1
  · next hboth =>
    split
    · next hends =>
      refine completeMove ha h _ _ _ hc fun hk => ?_
      rw [hk] at hends
      have hclim : b.climActive c = true := hends
      simp only [hclim, Bool.and_true, Bool.not_eq_true] at hboth
      exact ⟨hclim, hboth⟩
    · exact h.modifyPosition c _ fun _ hp => hp

omit ha in
theorem mem_of_nextEntry {d : MoveDir} {c : Channel} (hn : nextEntry s = some (d, c)) :
    c ∈ s.drive.closing ++ s.drive.opening := by
  unfold nextEntry at hn
  rw [List.mem_append]
  split at hn
  · next hf =>
    cases hn
    exact .inl (List.mem_of_find?_eq_some hf)
  · obtain ⟨c', hf, hc'⟩ := Option.map_eq_some_iff.1 hn
    cases hc'
    exact .inr (List.mem_of_find?_eq_some hf)

omit ha in
theorem arbiter (n : Nat) (T : Set Channel) (s : State) (h : State.grantsFrom b A T x s) :
    State.grantsFrom b A T x (Machine.arbiter n s) := by
  induction n generalizing T s with
  | zero => exact h
  | succ n ih =>
    unfold Machine.arbiter
    split
    · split
      · exact h
      · next hn => exact ih _ _ (startMove ih (h.removeEntry _) _ (h.queue _ (mem_of_nextEntry hn)))
    · exact h

omit ha in
theorem runArbiter (T : Set Channel) (s : State) (h : State.grantsFrom b A T x s) :
    State.grantsFrom b A T x (Machine.runArbiter s) :=
  arbiter _ T s h

omit ha in
theorem heldAt_estimateLeg {p : Position} {n : Nat} (hp : p.heldAt n) : (estimateLeg p).heldAt n := by
  unfold estimateLeg
  split
  · exact hp
  · exact hp

omit ha in
theorem retarget (h : State.grantsFrom b A T x s) (m : Move) {c : Channel} (hc : c ∈ A) :
    State.grantsFrom b A T x (Machine.retarget m c s) := by
  have h₁ := h.modifyPosition c estimateLeg fun _ => heldAt_estimateLeg
  unfold Machine.retarget
  simp only
  split
  · exact runArbiter _ _ (h₁.modifyPosition c _ fun _ hp => hp)
  · split
    · exact h₁.renewMove c
    · exact reverseMove runArbiter h₁ _ hc

omit ha in
/-- A target given to an eligible outlet's channel, which has no homing to come that would take it to 0. -/
theorem giveTarget (h : State.grantsFrom b A T x s) {c : Channel} (hc : c ∈ A) (hb : b.isEligible c = true)
    (hx : x c = 0 ∨ (s.position c).homeReq = false) :
    State.grantsFrom b A (insert c T) x (Machine.giveTarget c (x c) s) := by
  have h₁ : State.grantsFrom b A (insert c T) x (s.modifyPosition c fun p => { p with target := some (x c) }) :=
    h.setTarget hb ⟨rfl, hx⟩
  unfold Machine.giveTarget
  simp only
  split
  · split
    · exact h₁
    · exact retarget h₁ _ hc
  · split
    · exact h₁
    · exact applyNeed runArbiter h₁ hc

end State.grantsFrom

end Sys2Proof.Machine
end

section
/-! The disable of a pool (R31): the records it writes, and what the targets 0 that it gives can set off in the same event. -/

namespace Sys2Proof.Machine

/-! ### What an effect of a grant leaves of an outlet record -/

/-- The parts of the record `o` that the record `u` has kept within an event of targets and grants. -/
structure Outlet.keptByGrant (o u : Outlet) : Prop where
  fixed : u.fixed = o.fixed
  setA : u.setA = o.setA
  setB : u.setB = o.setB
  bars : u.bars = o.bars
  feederOf : u.feederOf = o.feederOf
  feederDemand : u.feederDemand = o.feederDemand
  grant : o.grant = 0 → u.grant = 0
  effDemand : o.effDemand = 0 → u.effDemand = 0
  warmTimer : o.warmTimer = none → u.warmTimer = none

theorem Outlet.keptByGrant_refl (o : Outlet) : o.keptByGrant o :=
  ⟨rfl, rfl, rfl, rfl, rfl, rfl, id, id, id⟩

theorem bothLimitsFault_keptByGrant (o : Outlet) : o.keptByGrant (bothLimitsFault o) := by
  have left : o.keptByGrant { leaveEligible .faulted o with lastFault := some .bothLimits } :=
    ⟨rfl, rfl, rfl, rfl, rfl, rfl, fun _ => rfl, fun _ => rfl, fun _ => rfl⟩
  unfold bothLimitsFault
  split
  · exact left
  · exact left
  · exact left
  · exact { o.keptByGrant_refl with }
  · exact { o.keptByGrant_refl with }
  · exact o.keptByGrant_refl
  · exact o.keptByGrant_refl

theorem grantEffect_keptByGrant (olim : Bool) (o : Outlet) : o.keptByGrant (grantEffect olim o) := by
  cases olim with
  | true => exact bothLimitsFault_keptByGrant o
  | false => exact { o.keptByGrant_refl with }

/-- The STATE an effect leaves: as it was, or FAULTED by both limits, or a homing at its end (R120, R121). -/
theorem grantEffect_state (s : State) {c : Channel} (o : Outlet) (hclim : s.climActive c = true) :
    (grantEffect (s.olimActive c) o).state = o.state ∨
    o.state ≠ .held ∧ o.state ≠ .faulted ∧ s.failsAtOnce c (grantEffect (s.olimActive c) o) ∨
    o.state = .homing ∧ s.homesAtOnce c (grantEffect (s.olimActive c) o) := by
  cases holim : s.olimActive c with
  | true =>
    have fails (hs : (bothLimitsFault o).state = .faulted) (hl : (bothLimitsFault o).lastFault = some .bothLimits) :
        s.failsAtOnce c (grantEffect true o) := ⟨hclim, holim, hs, hl⟩
    cases hs : o.state with
    | held => exact .inl (by simp [grantEffect, bothLimitsFault_of_silent (.inl hs), hs])
    | faulted => exact .inl (by simp [grantEffect, bothLimitsFault_of_silent (.inr hs), hs])
    | homing | idle | warming | serving | locked =>
      refine .inr (.inl ⟨by simp, by simp, fails ?_ ?_⟩) <;> simp [bothLimitsFault, hs, leaveEligible]
  | false =>
    by_cases hs : o.state = .homing
    · exact .inr (.inr ⟨hs, hclim, holim, by simp [grantEffect, homedOutlet, hs]⟩)
    · exact .inl (by simp [grantEffect, homedOutlet, hs])

/-- An outlet record at the end of an event of targets and grants. -/
theorem State.grantsFrom.present {b s : State} {A T : Set Channel} {x : Channel → Nat} (h : b.grantsFrom A T x s)
    {c : Channel} {o : Outlet} (ho : b.outlet c = some o) : ∃ u : Outlet, s.outlet c = some u ∧ o.keptByGrant u ∧
      (c ∉ A ∨ b.climActive c = false → u = o) ∧
      (u.state = o.state ∨ o.state ≠ .held ∧ o.state ≠ .faulted ∧ b.failsAtOnce c u ∨
        o.state = .homing ∧ b.homesAtOnce c u) := by
  rcases h.outlet c with e | ⟨hc, hclim, e⟩
  · exact ⟨o, e.trans ho, o.keptByGrant_refl, fun _ => rfl, .inl rfl⟩
  · refine ⟨_, by rw [e, ho]; rfl, grantEffect_keptByGrant _ o, fun hno => ?_, grantEffect_state b o hclim⟩
    rcases hno with hno | hno
    · exact absurd hc hno
    · rw [hclim] at hno; cases hno

theorem State.grantsFrom.absent {b s : State} {A T : Set Channel} {x : Channel → Nat} (h : b.grantsFrom A T x s)
    {c : Channel} (ho : b.outlet c = none) : s.outlet c = none := by
  rcases h.outlet c with e | ⟨-, -, e⟩ <;> simp [e, ho]

/-! ### The records a disable writes -/

/-- FEEDER of the pool is the channel's outlet; STEAM has none. -/
def State.feeds (s : State) (p : Pool) (c : Channel) : Bool :=
  match p with
  | .steam => false
  | .hw h => decide ((s.hwPart h).feeder = some c)

theorem State.feeds_iff (s : State) (p : Pool) (c : Channel) :
    s.feeds p c = true ↔ ∃ h : HwPool, p = .hw h ∧ (s.hwPart h).feeder = some c := by
  cases p <;> simp [State.feeds]

/-- What a disable of the pool makes of the record of a channel, before the targets are given. -/
def disabledRecord (p : Pool) (s : State) (c : Channel) (o : Outlet) : Outlet :=
  let x := if o.fixed.pool = p then disableOutlet o else o
  if s.feeds p c then { x with feederDemand := 0 } else x

theorem disabledRecord_of_feeds {p : Pool} {s : State} {c : Channel} (h : s.feeds p c = true) :
    disabledRecord p s c = fun o => { (if o.fixed.pool = p then disableOutlet o else o) with feederDemand := 0 } := by
  funext o
  simp [disabledRecord, h]

theorem disabledRecord_of_other {p : Pool} {s : State} {c : Channel} (h : s.feeds p c = false) :
    disabledRecord p s c = fun o => if o.fixed.pool = p then disableOutlet o else o := by
  funext o
  simp [disabledRecord, h]

theorem State.hwPart_congr {s t : State} (h : t.pools = s.pools) (k : HwPool) : t.hwPart k = s.hwPart k := by
  cases k <;> simp [State.hwPart, h]

theorem disabledOutlets_outlet (p : Pool) (s : State) (c : Channel) :
    (disabledOutlets p s).outlet c = (s.outlet c).map (disabledRecord p s c) := by
  have hall : ∀ d : Channel, ((indices 48).foldl (fun s c =>
      s.modifyOutlet c fun o => if o.fixed.pool = p then disableOutlet o else o) s).outlet d =
        (s.outlet d).map fun o => if o.fixed.pool = p then disableOutlet o else o := fun d => by
    rw [foldl_modifyOutlet_outlet _ (indices_nodup 48), if_pos (mem_indices d)]
  have hpools := foldl_modifyOutlet_pools (fun o => if o.fixed.pool = p then disableOutlet o else o) (indices 48) s
  unfold disabledOutlets
  generalize (indices 48).foldl (fun s c =>
    s.modifyOutlet c fun o => if o.fixed.pool = p then disableOutlet o else o) s = s₁ at hall hpools
  cases p with
  | steam => rw [disabledRecord_of_other rfl]; exact hall c
  | hw h =>
    simp only [State.hwPart_congr hpools]
    split
    · next d hf =>
      rw [State.outlet_modifyOutlet, hall, hall]
      by_cases e : d = c
      · subst e
        rw [if_pos rfl, disabledRecord_of_feeds (by simp [State.feeds, hf]), Option.map_map]
        rfl
      · rw [if_neg e, disabledRecord_of_other (by simp [State.feeds, hf, e])]
    · next hf => rw [hall, disabledRecord_of_other (by simp [State.feeds, hf])]

theorem disableRecords_outlet (p : Pool) (s : State) (c : Channel) :
    (disableRecords p s).outlet c = (s.outlet c).map (disabledRecord p s c) := by
  rw [disableRecords_eq, State.setPool_outlet, disabledOutlets_outlet]

/-- The state `u` is `s` but for outlet records and pool records. -/
def State.sameButRecords (s u : State) : Prop :=
  u = { s with outlets := u.outlets, pools := u.pools }

theorem State.sameButRecords.modifyOutlet {s u : State} (h : s.sameButRecords u) (c : Channel) (f : Outlet → Outlet) :
    s.sameButRecords (u.modifyOutlet c f) :=
  congrArg (fun v => State.modifyOutlet v c f) h

theorem State.sameButRecords.setPool {s u : State} (h : s.sameButRecords u) (p : Pool) (r : PoolRecord) :
    s.sameButRecords (u.setPool p r) := by
  rcases p with _ | _ | _ <;> exact congrArg (fun v => State.setPool v _ r) h

theorem disabledOutlets_frame (p : Pool) (s : State) : s.sameButRecords (disabledOutlets p s) := by
  have hall : s.sameButRecords ((indices 48).foldl (fun s c =>
      s.modifyOutlet c fun o => if o.fixed.pool = p then disableOutlet o else o) s) :=
    List.foldlRecOn (motive := s.sameButRecords) (indices 48) _ rfl fun _ hu c _ => hu.modifyOutlet c _
  unfold disabledOutlets
  simp only
  split
  · exact hall
  · split
    · exact hall.modifyOutlet _ _
    · exact hall

/-- A disable writes outlet records and pool records alone, before the targets are given. -/
theorem disableRecords_frame (p : Pool) (s : State) : s.sameButRecords (disableRecords p s) := by
  rw [disableRecords_eq]
  exact (disabledOutlets_frame p s).setPool p _

theorem disableRecords_drive (p : Pool) (s : State) : (disableRecords p s).drive = s.drive := by
  have h : disableRecords p s = _ := disableRecords_frame p s
  rw [h]

theorem disableOutlet_kept (o : Outlet) : o.keptByGrant (disableOutlet o) ∧
    (disableOutlet o).assumedDraw = o.assumedDraw ∧ (disableOutlet o).recovery = o.recovery := by
  unfold disableOutlet
  split
  · exact ⟨⟨rfl, rfl, rfl, rfl, rfl, rfl, fun _ => rfl, fun _ => rfl, fun _ => rfl⟩, rfl, rfl⟩
  · exact ⟨⟨rfl, rfl, rfl, rfl, rfl, rfl, fun _ => rfl, fun _ => rfl, id⟩, rfl, rfl⟩

/-- A disable leaves the settings of every record, its bars, FEEDER_OF, ASSUMED_DRAW and the recovery flag. -/
theorem disabledRecord_kept (p : Pool) (s : State) (c : Channel) (o : Outlet) :
    (disabledRecord p s c o).fixed = o.fixed ∧ (disabledRecord p s c o).setA = o.setA ∧
    (disabledRecord p s c o).setB = o.setB ∧ (disabledRecord p s c o).bars = o.bars ∧
    (disabledRecord p s c o).feederOf = o.feederOf ∧ (disabledRecord p s c o).assumedDraw = o.assumedDraw ∧
    (disabledRecord p s c o).recovery = o.recovery := by
  obtain ⟨hkept, hdraw, hrecovery⟩ : o.keptByGrant (if o.fixed.pool = p then disableOutlet o else o) ∧
      (if o.fixed.pool = p then disableOutlet o else o).assumedDraw = o.assumedDraw ∧
      (if o.fixed.pool = p then disableOutlet o else o).recovery = o.recovery := by
    split
    · exact disableOutlet_kept o
    · exact ⟨o.keptByGrant_refl, rfl, rfl⟩
  cases h : s.feeds p c with
  | true =>
    rw [disabledRecord_of_feeds h]
    exact ⟨hkept.fixed, hkept.setA, hkept.setB, hkept.bars, hkept.feederOf, hdraw, hrecovery⟩
  | false =>
    rw [disabledRecord_of_other h]
    exact ⟨hkept.fixed, hkept.setA, hkept.setB, hkept.bars, hkept.feederOf, hdraw, hrecovery⟩

/-- What a disable makes of the other fields: those of the pool's own outlets, and FEEDER_DEMAND. -/
theorem disabledRecord_eq (p : Pool) (s : State) (c : Channel) (o : Outlet) (x : Outlet)
    (hother : o.fixed.pool ≠ p → x = o)
    (hidle : o.fixed.pool = p → o.state.eligible = false → x = { o with grant := 0, effDemand := 0 })
    (hown : o.fixed.pool = p → o.state.eligible = true →
      x = { o with grant := 0, effDemand := 0, state := .idle, warmTimer := none }) :
    disabledRecord p s c o = if s.feeds p c = true then { x with feederDemand := 0 } else x := by
  have hx : x = if o.fixed.pool = p then disableOutlet o else o := by
    by_cases hp : o.fixed.pool = p
    · rw [if_pos hp]
      cases he : o.state.eligible with
      | true => simp [disableOutlet, he, hown hp he]
      | false => simp [disableOutlet, he, hidle hp he]
    · rw [if_neg hp, hother hp]
  rw [hx]
  rfl

theorem disabledRecord_grant {p : Pool} (s : State) (c : Channel) {o : Outlet} (hp : o.fixed.pool = p) :
    (disabledRecord p s c o).grant = 0 ∧ (disabledRecord p s c o).effDemand = 0 := by
  rw [disabledRecord, if_pos hp, disableOutlet]
  split <;> split <;> exact ⟨rfl, rfl⟩

/-- An eligible outlet of the pool enters IDLE. -/
theorem disabledRecord_own {p : Pool} (s : State) (c : Channel) {o : Outlet} (hp : o.fixed.pool = p)
    (he : o.state.eligible = true) : (disabledRecord p s c o).state = .idle ∧ (disabledRecord p s c o).warmTimer = none := by
  rw [disabledRecord, if_pos hp, disableOutlet, if_pos he]
  split <;> exact ⟨rfl, rfl⟩

/-- Every other outlet keeps its STATE. -/
theorem disabledRecord_state {p : Pool} (s : State) (c : Channel) {o : Outlet}
    (h : o.state.eligible = false ∨ o.fixed.pool ≠ p) : (disabledRecord p s c o).state = o.state := by
  rw [disabledRecord, disableOutlet]
  rcases h with h | h
  · simp only [h, Bool.false_eq_true, if_false]
    split <;> split <;> rfl
  · simp only [h, if_false]
    split <;> rfl

theorem disabledRecord_feederDemand {p : Pool} {s : State} {c : Channel} (o : Outlet) (h : s.feeds p c = true) :
    (disabledRecord p s c o).feederDemand = 0 := by
  rw [disabledRecord_of_feeds h]

/-! ### The targets a disable gives -/

theorem mem_eligibleOf {p : Pool} {s : State} {c : Channel} : c ∈ eligibleOf p s ↔ s.eligibleIn p c := by
  unfold eligibleOf State.eligibleIn
  rw [List.mem_filter]
  cases s.outlet c <;> simp

/-- The eligible outlets of a pool are listed in ascending channel order. -/
theorem eq_eligibleOf {p : Pool} {s : State} {closed : List Channel} (hasc : closed.Pairwise (fun x y => x < y))
    (hmem : ∀ c : Channel, c ∈ closed ↔ s.eligibleIn p c) : closed = eligibleOf p s :=
  List.Pairwise.eq_of_mem_iff hasc ((indices_pairwise_lt 48).filter _) fun c => (hmem c).trans mem_eligibleOf.symm

/-- Targets 0 to the channels of a list, but not to an outlet that an earlier one's event has made ineligible (log 12). -/
theorem State.grantsFrom.foldl_zeroTargets {b s : State} {A T : Set Channel} {cs : List Channel}
    (hcs : ∀ c ∈ cs, c ∈ A ∧ b.isEligible c = true) (h : b.grantsFrom A T (fun _ => 0) s) :
    b.grantsFrom A ({c | c ∈ cs} ∪ T) (fun _ => 0)
      (cs.foldl (fun s c => if s.isEligible c then Machine.giveTarget c 0 s else s) s) := by
  induction cs generalizing s T with
  | nil => simpa using h
  | cons c cs ih =>
    obtain ⟨hA, hb⟩ := hcs c (by simp)
    have hstep : b.grantsFrom A (insert c T) (fun _ => 0) (if s.isEligible c then Machine.giveTarget c 0 s else s) := by
      split
      · exact h.giveTarget hA hb (.inl rfl)
      · next he => exact h.insert_ineligible hb (by simpa using he)
    have hset : {d | d ∈ c :: cs} ∪ T = {d | d ∈ cs} ∪ insert c T := by
      ext d
      simp
      tauto
    rw [hset, List.foldl_cons]
    exact ih (fun d hd => hcs d (by simp [hd])) hstep

/-- The channels a disable of the pool can reach: those queued, and the pool's eligible outlets. -/
def reachedByDisable (p : Pool) (s : State) : Set Channel :=
  {c | c ∈ s.drive.closing ∨ c ∈ s.drive.opening ∨ s.eligibleIn p c}

/-- A disable, from the records it writes on, is an event of targets 0 and slot grants. -/
theorem disablePool_grantsFrom (p : Pool) (s : State) :
    (disableRecords p s).grantsFrom (reachedByDisable p s) {c | s.eligibleIn p c} (fun _ => 0) (disablePool p s) := by
  have hstart := State.grantsFrom.refl (A := reachedByDisable p s) (disableRecords p s) (fun _ => 0) fun c hc => by
    rw [disableRecords_drive, List.mem_append] at hc
    exact hc.imp id Or.inl
  have hfold := hstart.foldl_zeroTargets (cs := eligibleOf p s) fun c hc => by
    have hin := mem_eligibleOf.1 hc
    refine ⟨.inr (.inr hin), ?_⟩
    obtain ⟨o, ho, hp, he⟩ := hin
    have hrecord : (disableRecords p s).outlet c = some (disabledRecord p s c o) := by rw [disableRecords_outlet, ho]; rfl
    rw [isEligible_present hrecord, (disabledRecord_own s c hp he).1]
    rfl
  have hset : {c | c ∈ eligibleOf p s} ∪ (∅ : Set Channel) = {c | s.eligibleIn p c} := by
    ext c
    simp [mem_eligibleOf]
  rw [hset] at hfold
  exact hfold

/-- What a disable's targets leave alone. -/
theorem disablePool_frame (p : Pool) (s : State) : driveFrame (disableRecords p s) (disablePool p s) :=
  List.foldlRecOn (motive := driveFrame (disableRecords p s)) (eligibleOf p s) _ (driveFrame_refl _) fun u hu c _ => by
    split
    · exact (keptByDrive_frame _).giveTarget c (by omega) hu
    · exact hu

/-! ### The outlets after a disable -/

theorem disablePool_absent {p : Pool} {s : State} {c : Channel} (ho : s.outlet c = none) :
    (disablePool p s).outlet c = none :=
  (disablePool_grantsFrom p s).absent (by rw [disableRecords_outlet, ho]; rfl)

/-- A present outlet after a disable: its record as the disable writes it, but for the effect of a grant. -/
theorem disablePool_present {p : Pool} {s : State} {c : Channel} {o : Outlet} (ho : s.outlet c = some o) :
    ∃ u : Outlet, (disablePool p s).outlet c = some u ∧ (disabledRecord p s c o).keptByGrant u ∧
      (c ∉ reachedByDisable p s ∨ s.climActive c = false → u = disabledRecord p s c o) ∧
      (u.state = (disabledRecord p s c o).state ∨
        (disabledRecord p s c o).state ≠ .held ∧ (disabledRecord p s c o).state ≠ .faulted ∧ s.failsAtOnce c u ∨
        (disabledRecord p s c o).state = .homing ∧ s.homesAtOnce c u) := by
  have hrecord : (disableRecords p s).outlet c = some (disabledRecord p s c o) := by rw [disableRecords_outlet, ho]; rfl
  have h := (disablePool_grantsFrom p s).present hrecord
  simpa only [State.failsAtOnce, State.homesAtOnce, State.climActive, State.olimActive, disableRecords_drive] using h

/-- An outlet found after a disable was there before. -/
theorem disablePool_outlet_some {p : Pool} {s : State} {c : Channel} {u : Outlet}
    (hu : (disablePool p s).outlet c = some u) : ∃ o : Outlet, s.outlet c = some o := by
  cases ho : s.outlet c with
  | none => rw [disablePool_absent ho] at hu; cases hu
  | some o => exact ⟨o, rfl⟩

/-- The pool's own outlets after its disable: nothing granted, and none in WARMING or SERVING. -/
theorem disablePool_ownOutlet {p : Pool} {s : State} {c : Channel} {u : Outlet}
    (hu : (disablePool p s).outlet c = some u) (hp : u.fixed.pool = p) :
    u.grant = 0 ∧ u.effDemand = 0 ∧ u.state ≠ .warming ∧ u.state ≠ .serving ∧
    (s.isEligible c = true → u.state.eligible = true → ((disablePool p s).position c).target = some 0) := by
  obtain ⟨o, ho⟩ := disablePool_outlet_some hu
  obtain ⟨u', hu', hkept, -, hstate⟩ := disablePool_present (p := p) ho
  obtain rfl : u = u' := by simpa [hu] using hu'
  have hpo : o.fixed.pool = p := by rw [← hp, hkept.fixed, (disabledRecord_kept p s c o).1]
  obtain ⟨hgrant, heff⟩ := disabledRecord_grant s c hpo
  have hactive : u.state ≠ .warming ∧ u.state ≠ .serving := by
    have hrecord : (disabledRecord p s c o).state ≠ .warming ∧ (disabledRecord p s c o).state ≠ .serving := by
      cases he : o.state.eligible with
      | true => simp [(disabledRecord_own s c hpo he).1]
      | false =>
        rw [disabledRecord_state s c (.inl he)]
        constructor <;> intro h <;> simp [h, OutletState.eligible] at he
    rcases hstate with h | ⟨-, -, -, -, h, -⟩ | ⟨-, -, -, h⟩
    · rwa [h]
    · simp [h]
    · rw [h]; split <;> simp
  refine ⟨hkept.grant hgrant, hkept.effDemand heff, hactive.1, hactive.2, fun he hue => ?_⟩
  rw [isEligible_present ho] at he
  exact ((disablePool_grantsFrom p s).target c ⟨o, ho, hpo, he⟩ (by rwa [isEligible_present hu])).1

/-- What becomes of any present outlet in the event of a disable. -/
theorem disablePool_anyOutlet {p : Pool} {s : State} {c : Channel} {o : Outlet} (ho : s.outlet c = some o) :
    ∃ u : Outlet, (disablePool p s).outlet c = some u ∧ u.fixed = o.fixed ∧ u.setA = o.setA ∧ u.setB = o.setB ∧
      u.bars = o.bars ∧ u.feederOf = o.feederOf ∧
      (o.state.eligible = true → o.fixed.pool = p → u.warmTimer = none ∧ (u.state = .idle ∨ s.failsAtOnce c u)) ∧
      (o.state.eligible = true → o.fixed.pool ≠ p → u.state = o.state ∨ s.failsAtOnce c u) ∧
      ((o.state = .held ∨ o.state = .faulted) → u.state = o.state) ∧
      (o.state = .locked → u.state = .locked ∨ s.failsAtOnce c u) ∧
      (o.state = .homing → u.state = .homing ∨ s.homesAtOnce c u ∨ s.failsAtOnce c u) ∧
      ((o.state.eligible = false ∨ o.fixed.pool ≠ p) → c ∉ s.drive.closing → c ∉ s.drive.opening → u.state = o.state) ∧
      (s.climActive c = false → u.assumedDraw = o.assumedDraw ∧ u.recovery = o.recovery) := by
  obtain ⟨u, hu, hkept, hstands, hstate⟩ := disablePool_present (p := p) ho
  obtain ⟨hfixed, hsetA, hsetB, hbars, hfeeder, hdraw, hrecovery⟩ := disabledRecord_kept p s c o
  have hother (h : o.state.eligible = false ∨ o.fixed.pool ≠ p) :
      u.state = o.state ∨ o.state ≠ .held ∧ o.state ≠ .faulted ∧ s.failsAtOnce c u ∨
        o.state = .homing ∧ s.homesAtOnce c u := by
    rwa [disabledRecord_state s c h] at hstate
  refine ⟨u, hu, hkept.fixed.trans hfixed, hkept.setA.trans hsetA, hkept.setB.trans hsetB, hkept.bars.trans hbars,
    hkept.feederOf.trans hfeeder, fun he hp => ?_, fun he hp => ?_, fun hs => ?_, fun hs => ?_, fun hs => ?_,
    fun hno hcl hop => ?_, fun hclim => ?_⟩
  · obtain ⟨hidle, hwarm⟩ := disabledRecord_own s c hp he
    refine ⟨hkept.warmTimer hwarm, ?_⟩
    rw [hidle] at hstate
    rcases hstate with h | ⟨-, -, h⟩ | ⟨h, -⟩
    exacts [.inl h, .inr h, by cases h]
  · rcases hother (.inr hp) with h | ⟨-, -, h⟩ | ⟨h, -⟩
    · exact .inl h
    · exact .inr h
    · rw [h] at he; cases he
  · rcases hother (.inl (by rcases hs with h | h <;> rw [h] <;> rfl)) with h | ⟨hh, hf, -⟩ | ⟨h, -⟩
    · exact h
    · exact (hs.elim hh hf).elim
    · rw [h] at hs; simp at hs
  · rcases hother (.inl (by rw [hs]; rfl)) with h | ⟨-, -, h⟩ | ⟨h, -⟩
    · exact .inl (h.trans hs)
    · exact .inr h
    · rw [hs] at h; cases h
  · rcases hother (.inl (by rw [hs]; rfl)) with h | ⟨-, -, h⟩ | ⟨-, h⟩
    · exact .inl (h.trans hs)
    · exact .inr (.inr h)
    · exact .inr (.inl h)
  · rw [hstands (.inl ?_), disabledRecord_state s c hno]
    rintro (h | h | ⟨o', ho', hp, he⟩)
    · exact hcl h
    · exact hop h
    · obtain rfl : o = o' := by simpa [ho] using ho'
      rcases hno with h | h
      · rw [he] at h; cases h
      · exact h hp
  · rw [hstands (.inr hclim)]
    exact ⟨hdraw, hrecovery⟩

/-! ### The pool records after a disable, and the statement -/

theorem disablePool_pools (p : Pool) (s : State) : (disablePool p s).pools = (disableRecords p s).pools := by
  obtain ⟨-, -, hpools, -⟩ := disablePool_frame p s
  exact hpools

theorem disableRecords_steamPart (p : Pool) (s : State) : (disableRecords p s).pools.steamPart = s.pools.steamPart := by
  rw [disableRecords_eq, State.steamPart_setPool, disabledOutlets_pools]

theorem disableRecords_hwPart (p : Pool) (s : State) (h : HwPool) : (disableRecords p s).hwPart h = s.hwPart h := by
  rw [disableRecords_eq, State.setPool_hwPart, State.hwPart_congr (disabledOutlets_pools p s)]

/-- The blocks a disable leaves alone. -/
theorem disablePool_blocks (p : Pool) (s : State) : (disablePool p s).demands = s.demands ∧
    (disablePool p s).curtail = s.curtail ∧ (disablePool p s).log = s.log := by
  obtain ⟨-, -, -, hdemands, hcurtail, hlog, -⟩ := disablePool_frame p s
  have h : disableRecords p s = _ := disableRecords_frame p s
  rw [hdemands, hcurtail, hlog, h]
  exact ⟨rfl, rfl, rfl⟩

/-- Settles O34: the records a disable writes, and then the event of its targets 0. -/
theorem disablingClearsGrants : Obligations.DisablingClearsGrants := by
  unfold Obligations.DisablingClearsGrants
  rintro p s t rfl
  have hpool (q : Pool) : (disablePool p s).pool q = (disableRecords p s).pool q :=
    State.pool_congr (disablePool_pools p s) q
  obtain ⟨hdemands, hcurtail, hlog⟩ := disablePool_blocks p s
  refine ⟨⟨_, rfl, ?_⟩, fun q hq => ?_, ?_, fun h => ?_, hdemands, hcurtail, hlog, fun c o => disablePool_ownOutlet,
    fun h c o hp hfeeder ho => ?_, fun closed hasc hmem => ⟨disableRecords p s, ?_, fun c ho => ?_,
      fun c o x u ho hother hidle hown hfeeds hnot => ?_, ?_⟩, fun c => ⟨disablePool_absent, fun o => disablePool_anyOutlet⟩⟩
  · rw [hpool, disableRecords_pool, if_pos rfl]
  · rw [hpool, disableRecords_pool, if_neg (Ne.symm hq)]
  · rw [disablePool_pools, disableRecords_steamPart]
  · rw [State.hwPart_congr (disablePool_pools p s), disableRecords_hwPart]
  · obtain ⟨o', ho'⟩ := disablePool_outlet_some ho
    obtain ⟨u, hu, hkept, -⟩ := disablePool_present (p := p) ho'
    obtain rfl : o = u := by simpa [ho] using hu
    exact hkept.feederDemand.trans (disabledRecord_feederDemand o' ((s.feeds_iff p c).2 ⟨h, hp, hfeeder⟩))
  · rw [disablePool_pools]
    exact disableRecords_frame p s
  · rw [disableRecords_outlet, ho]
    rfl
  · rw [disableRecords_outlet, ho, Option.map_some, disabledRecord_eq p s c o x hother hidle hown]
    split
    · next hf => rw [hfeeds ((s.feeds_iff p c).1 hf)]
    · next hf => rw [hnot fun h hp hfeeder => hf ((s.feeds_iff p c).2 ⟨h, hp, hfeeder⟩)]
  · rw [eq_eligibleOf hasc hmem]
    rfl

end Sys2Proof.Machine
end

section
/-! The allocation round (R54 to R59): what Stage A and Stage B do at one class, and from that the three laws and the exact total. A
class step is a `grantClass`; the pro rata shares and the passes of a fill come to their totals by the leftover's count of ranks. -/

namespace Sys2Proof.Machine

/-! ### Sums over participants -/

section
variable {f g : Part → Nat} {ps qs : List Part}

@[simp] theorem total_nil : total f [] = 0 := rfl

@[simp] theorem total_cons (p : Part) : total f (p :: ps) = f p + total f ps := rfl

@[simp] theorem total_append : total f (ps ++ qs) = total f ps + total f qs := by
  simp [total]

theorem total_perm (h : ps.Perm qs) : total f ps = total f qs :=
  (h.map f).sum_eq

theorem total_add : total (fun p => f p + g p) ps = total f ps + total g ps :=
  List.sum_map_add

theorem total_mul_left (n : Nat) : total (fun p => n * f p) ps = n * total f ps :=
  List.sum_map_mul_left ..

theorem total_congr (h : ∀ p ∈ ps, f p = g p) : total f ps = total g ps :=
  congrArg List.sum (List.map_congr_left h)

theorem total_le (h : ∀ p ∈ ps, f p ≤ g p) : total f ps ≤ total g ps :=
  List.sum_le_sum h

theorem le_total {p : Part} (h : p ∈ ps) : f p ≤ total f ps :=
  List.single_le_sum (by simp) _ (List.mem_map_of_mem h)

/-- A sum over the participants that meet a condition and those that do not. -/
theorem total_filter_add (c : Part → Bool) :
    total f (ps.filter c) + total f (ps.filter fun p => !c p) = total f ps := by
  rw [← total_append]
  exact total_perm (List.filter_append_perm c ps)

theorem total_ite (c : Part → Bool) : total (fun p => if c p = true then f p else g p) ps =
    total f (ps.filter c) + total g (ps.filter fun p => !c p) := by
  rw [← total_filter_add c]
  congr 1
  · exact total_congr fun p hp => if_pos (List.mem_filter.1 hp).2
  · exact total_congr fun p hp => if_neg (by simpa using (List.mem_filter.1 hp).2)

/-- Where no term is above its bound, equal sums have equal terms. -/
theorem eq_of_total_le (h : ∀ p ∈ ps, f p ≤ g p) (ht : total g ps ≤ total f ps) : ∀ p ∈ ps, f p = g p := by
  induction ps with
  | nil => simp
  | cons p ps ih =>
    rw [List.forall_mem_cons] at h ⊢
    have hrest := total_le h.2
    simp only [total_cons] at ht
    exact ⟨by omega, ih h.2 (by omega)⟩

/-- Shares rounded down come to no more than the whole. -/
theorem total_div_le (w : Nat) : total (fun p => f p / w) ps * w ≤ total f ps := by
  induction ps with
  | nil => simp
  | cons p ps ih =>
    have hp := Nat.div_mul_le_self (f p) w
    simp only [total_cons, Nat.add_mul]
    omega

/-- Rounding down loses less than one at each share above 0. -/
theorem total_le_div {w : Nat} (hw : 0 < w) :
    total f ps ≤ (total (fun p => f p / w) ps + (ps.filter fun p => decide (0 < f p)).length) * w := by
  induction ps with
  | nil => simp
  | cons p ps ih =>
    have hp := Nat.div_add_mod' (f p) w
    have hmod := Nat.mod_lt (f p) hw
    by_cases h0 : 0 < f p
    · simp only [total_cons, List.filter_cons, h0, decide_true, if_true, List.length_cons, Nat.add_mul] at ih ⊢
      omega
    · simp only [total_cons, List.filter_cons, h0, decide_false, Bool.false_eq_true, if_false, Nat.add_mul] at ih ⊢
      omega

end

/-! ### The leftover (R55, R58) -/

/-- The order of a leftover: descending key, ties by ascending channel. -/
def before (key : Part → Nat) (q p : Part) : Bool :=
  decide (key p < key q) || (decide (key q = key p) && decide (q.ch < p.ch))

theorem before_iff {key : Part → Nat} {q p : Part} :
    before key q p = true ↔ key p < key q ∨ key q = key p ∧ q.ch.val < p.ch.val := by
  simp [before]

theorem rank_eq (key : Part → Nat) (ps : List Part) (p : Part) :
    rank key ps p = (ps.filter fun q => before key q p).length := rfl

theorem before_trans {key : Part → Nat} {x y z : Part} (h₁ : before key x y = true) (h₂ : before key y z = true) :
    before key x z = true := by
  rw [before_iff] at *
  omega

theorem not_before_self (key : Part → Nat) (p : Part) : ¬before key p p = true := by
  rw [before_iff]
  omega

theorem before_or_before (key : Part → Nat) {p q : Part} (h : p.ch ≠ q.ch) :
    before key p q = true ∨ before key q p = true := by
  rw [before_iff, before_iff]
  have := Fin.val_ne_of_ne h
  omega

theorem rank_lt_rank {key : Part → Nat} {ps : List Part} {p q : Part} (hq : q ∈ ps) (h : before key q p = true) :
    rank key ps q < rank key ps p := by
  have hsub : (ps.filter fun x => before key x q).Sublist (ps.filter fun x => before key x p) :=
    List.monotone_filter_right ps fun x hx => before_trans hx h
  refine lt_of_le_of_ne hsub.length_le fun hlen => ?_
  have hmem : q ∈ ps.filter fun x => before key x p := List.mem_filter.2 ⟨hq, h⟩
  rw [← hsub.eq_of_length hlen] at hmem
  exact not_before_self key q (List.mem_filter.1 hmem).2

theorem rank_lt_length {key : Part → Nat} {ps : List Part} {p : Part} (hp : p ∈ ps) : rank key ps p < ps.length := by
  refine lt_of_le_of_ne (List.length_filter_le ..) fun hlen => ?_
  rw [← (List.filter_sublist (p := fun q => before key q p)).eq_of_length hlen] at hp
  exact not_before_self key p (List.mem_filter.1 hp).2

/-- The ranks of participants with channels of their own are 0, 1, 2 and so on, each once. -/
theorem ranks_perm_range (key : Part → Nat) {ps : List Part} (hn : (ps.map Part.ch).Nodup) :
    (ps.map (rank key ps)).Perm (List.range ps.length) := by
  have hinj : (ps.map (rank key ps)).Nodup := by
    rw [List.Nodup, List.pairwise_map] at hn ⊢
    refine hn.imp_of_mem fun {p q} hp hq hne => ?_
    rcases before_or_before key hne with h | h
    · exact (rank_lt_rank hp h).ne
    · exact (rank_lt_rank hq h).ne'
  refine List.Subperm.perm_of_length_le (hinj.subperm fun n hm => ?_) (by simp)
  obtain ⟨p, hp, rfl⟩ := List.mem_map.1 hm
  exact List.mem_range.2 (rank_lt_length hp)

/-- A leftover is given out one kW at a time, as long as there is a participant to take it. -/
theorem total_leftoverKw (key : Part → Nat) {ps : List Part} (hn : (ps.map Part.ch).Nodup) (l : Nat) :
    total (leftoverKw key ps l) ps = min l ps.length := by
  have hrange : ∀ n, ((List.range n).map fun i => if i < l then 1 else 0).sum = min l n := fun n => by
    induction n with
    | zero => simp
    | succ n ih =>
      rw [List.range_succ, List.map_append, List.sum_append, ih]
      simp only [List.map_cons, List.map_nil, List.sum_cons, List.sum_nil]
      split <;> omega
  have hmap : ps.map (leftoverKw key ps l) = (ps.map (rank key ps)).map fun i => if i < l then 1 else 0 := by
    rw [List.map_map]
    rfl
  rw [total, hmap, ((ranks_perm_range key hn).map _).sum_eq, hrange]

theorem leftoverKw_le_one (key : Part → Nat) (ps : List Part) (l : Nat) (p : Part) : leftoverKw key ps l p ≤ 1 := by
  unfold leftoverKw
  split <;> omega

/-- A participant with key 0 stands behind all that have more. -/
theorem leftoverKw_of_key_zero {key : Part → Nat} {ps : List Part} {l : Nat} {p : Part} (hk : key p = 0)
    (hl : l ≤ (ps.filter fun q => decide (0 < key q)).length) : leftoverKw key ps l p = 0 := by
  have hsub : (ps.filter fun q => decide (0 < key q)).Sublist (ps.filter fun q => before key q p) :=
    List.monotone_filter_right ps fun q hq => before_iff.2 (.inl (hk ▸ of_decide_eq_true hq))
  rw [leftoverKw, if_neg]
  rw [rank_eq]
  have := hsub.length_le
  omega

/-! ### A change of the grants of one class -/

theorem mem_ofClass {k : ServiceClass} {ps : List Part} {p : Part} : p ∈ ofClass k ps ↔ p ∈ ps ∧ p.cls = k := by
  simp [ofClass]

theorem ofClass_channels_nodup {ps : List Part} (hn : (ps.map Part.ch).Nodup) (k : ServiceClass) :
    ((ofClass k ps).map Part.ch).Nodup :=
  hn.sublist (List.filter_sublist.map Part.ch)

theorem mem_grantClass {k : ServiceClass} {G : Part → Nat} {ps : List Part} {q : Part} (h : q ∈ grantClass k G ps) :
    ∃ p ∈ ps, (p.cls = k ∧ q = { p with g := G p }) ∨ (p.cls ≠ k ∧ q = p) := by
  obtain ⟨p, hp, rfl⟩ := List.mem_map.1 h
  refine ⟨p, hp, ?_⟩
  by_cases e : p.cls = k <;> simp [e]

/-- What a round is given of a participant: all but the grant it comes to. -/
def Part.asGiven (p : Part) : Channel × ServiceClass × Nat × Nat × Nat :=
  (p.ch, p.cls, p.weight, p.e, p.fu)

theorem grantClass_given (k : ServiceClass) (G : Part → Nat) (ps : List Part) :
    (grantClass k G ps).map Part.asGiven = ps.map Part.asGiven := by
  unfold grantClass
  rw [List.map_map]
  refine List.map_congr_left fun p _ => ?_
  simp only [Function.comp]
  split <;> rfl

theorem ofClass_grantClass_same (k : ServiceClass) (G : Part → Nat) (ps : List Part) :
    ofClass k (grantClass k G ps) = (ofClass k ps).map fun p => { p with g := G p } := by
  induction ps with
  | nil => rfl
  | cons p ps ih =>
    unfold ofClass grantClass at *
    by_cases e : p.cls = k <;> simp [e, ih]

theorem ofClass_grantClass_other {k j : ServiceClass} (h : j ≠ k) (G : Part → Nat) (ps : List Part) :
    ofClass j (grantClass k G ps) = ofClass j ps := by
  induction ps with
  | nil => rfl
  | cons p ps ih =>
    unfold ofClass grantClass at *
    by_cases e : p.cls = k
    · simp [e, ih, Ne.symm h]
    · simp [List.filter_cons, e, ih]

/-- A class step changes the sum of the grants by what it changes in the class. -/
theorem total_grantClass (k : ServiceClass) (G : Part → Nat) (ps : List Part) :
    total (fun q => q.g) (grantClass k G ps) + total (fun q => q.g) (ofClass k ps) =
      total (fun q => q.g) ps + total G (ofClass k ps) := by
  induction ps with
  | nil => rfl
  | cons p ps ih =>
    unfold ofClass grantClass at *
    by_cases e : p.cls = k
    · simp [e] at ih ⊢
      omega
    · simp [e] at ih ⊢
      omega

/-- The classes share the participants out among them. -/
theorem sum_classOrder (f : Part → Nat) (ps : List Part) :
    (classOrder.map fun k => total f (ofClass k ps)).sum = total f ps := by
  induction ps with
  | nil => rfl
  | cons p ps ih =>
    simp only [classOrder, ofClass, List.map_cons, List.map_nil, List.sum_cons, List.sum_nil, List.filter_cons] at ih ⊢
    cases h : p.cls <;> simp <;> omega

/-! ### Stage A (R54, R55) -/

/-- The pro rata shares of Stage A with their leftover: no share above its floor, and together all that remains (R55). -/
theorem proRata_floors {mem : List Part} (hn : (mem.map Part.ch).Nodup) {r : Nat} (hr : r < total (fun p => p.fu) mem)
    {G : Part → Nat} (hG : G = fun p => p.fu * r / total (fun p => p.fu) mem + leftoverKw (fun q => q.fu) mem
      (r - total (fun p => p.fu * r / total (fun p => p.fu) mem) mem) p) :
    (∀ p ∈ mem, G p ≤ p.fu) ∧ total G mem = r := by
  subst hG
  have hpos : 0 < total (fun p => p.fu) mem := by omega
  have hwhole : total (fun p => p.fu * r) mem = r * total (fun p => p.fu) mem := by
    rw [← total_mul_left]
    exact total_congr fun p _ => Nat.mul_comm ..
  generalize total (fun p => p.fu) mem = w at *
  have hle : total (fun p => p.fu * r / w) mem ≤ r :=
    Nat.le_of_mul_le_mul_right ((total_div_le w).trans hwhole.le) hpos
  have hge : r ≤ total (fun p => p.fu * r / w) mem + (mem.filter fun p => decide (0 < p.fu)).length := by
    have hcount : (mem.filter fun p => decide (0 < p.fu * r)).length ≤ (mem.filter fun p => decide (0 < p.fu)).length :=
      (List.monotone_filter_right mem fun p hp => by simp at hp ⊢; exact hp.1).length_le
    have := Nat.le_of_mul_le_mul_right (hwhole.ge.trans (total_le_div hpos)) hpos
    omega
  refine ⟨fun p hp => ?_, ?_⟩
  · by_cases h0 : p.fu = 0
    · simp only [h0, Nat.zero_mul, Nat.zero_div, Nat.zero_add]
      exact (leftoverKw_of_key_zero h0 (by omega)).le
    · have hshare : p.fu * r / w < p.fu :=
        Nat.div_lt_of_lt_mul (by rw [Nat.mul_comm w]; exact Nat.mul_lt_mul_of_pos_left hr (by omega))
      have := leftoverKw_le_one (fun q => q.fu) mem (r - total (fun p => p.fu * r / w) mem) p
      dsimp only
      omega
  · have hlen := List.length_filter_le (fun p : Part => decide (0 < p.fu)) mem
    rw [total_add, total_leftoverKw _ hn]
    omega

/-- Stage A at a class: no grant above the floor used, and what it grants leaves the remainder. -/
theorem stageAClass_grants (k : ServiceClass) (r : Nat) {ps : List Part} (hn : (ps.map Part.ch).Nodup) :
    ∃ G : Part → Nat, (stageAClass k (r, ps)).2 = grantClass k G ps ∧ (∀ p ∈ ofClass k ps, G p ≤ p.fu) ∧
      (stageAClass k (r, ps)).1 + total G (ofClass k ps) = r := by
  unfold stageAClass
  simp only
  split
  · next hle => exact ⟨_, rfl, fun _ _ => Nat.le_refl _, Nat.sub_add_cancel hle⟩
  · next hle =>
    obtain ⟨hfloor, hsum⟩ := proRata_floors (ofClass_channels_nodup hn k) (Nat.lt_of_not_le hle) rfl
    exact ⟨_, rfl, hfloor, by simpa using hsum⟩

/-! ### The weighted fill (R57, R58) -/

theorem total_e_eq {ps : List Part} (hge : ∀ p ∈ ps, p.g ≤ p.e) :
    total (fun p => p.e) ps = total need ps + total (fun p => p.g) ps := by
  rw [← total_add]
  refine total_congr fun p hp => ?_
  have := hge p hp
  simp only [need]
  omega

/-- The weighted shares of a remainder come to no more than it, whatever the weights. -/
theorem total_shares_le (r : Nat) (ps : List Part) :
    total (fun p => r * p.weight / total (fun p => p.weight) ps) ps ≤ r := by
  rcases Nat.eq_zero_or_pos (total (fun p => p.weight) ps) with h0 | hw
  · rw [h0]
    simp [total]
  · exact Nat.le_of_mul_le_mul_right ((total_div_le _).trans (total_mul_left r).le) hw

/-- The participants whose needs their shares meet leave with no more than the remainder (R57). -/
theorem total_need_leavers_le {r : Nat} {ps : List Part} {leaves : Part → Bool}
    (h : ∀ p, leaves p = true → need p ≤ r * p.weight / total (fun p => p.weight) ps) : total need (ps.filter leaves) ≤ r :=
  calc total need (ps.filter leaves)
    _ ≤ total (fun p => r * p.weight / total (fun p => p.weight) ps) (ps.filter leaves) :=
      total_le fun p hp => h p (List.mem_filter.1 hp).2
    _ ≤ total (fun p => r * p.weight / total (fun p => p.weight) ps) ps :=
      (Nat.le_add_right ..).trans (total_filter_add leaves).le
    _ ≤ r := total_shares_le r ps

/-- The final pass: every need left exceeds its share, so no grant exceeds E, and with weights the remainder goes out. -/
theorem finalPass_fills {r : Nat} {ps : List Part} (hn : (ps.map Part.ch).Nodup)
    (hstay : ∀ p ∈ ps, r * p.weight / total (fun p => p.weight) ps < need p) (hr : r < total need ps) :
    ∃ G : Part → Nat, finalPass r (total (fun p => p.weight) ps) ps = ps.map (fun p => { p with g := G p }) ∧
      (∀ p ∈ ps, G p ≤ p.e) ∧ total G ps ≤ r + total (fun p => p.g) ps ∧
      ((∀ p ∈ ps, 1 ≤ p.weight) → total G ps = r + total (fun p => p.g) ps) := by
  have hwhole : total (fun p => r * p.weight) ps = r * total (fun p => p.weight) ps := total_mul_left r
  have hpos : (∀ p ∈ ps, 1 ≤ p.weight) → 0 < total (fun p => p.weight) ps := fun hw => by
    cases ps with
    | nil => simp at hr
    | cons p ps => exact lt_of_lt_of_le (hw p (by simp)) (le_total (by simp))
  refine ⟨_, rfl, fun p hp => ?_, ?_⟩
  · have h := hstay p hp
    have := leftoverKw_le_one (fun q => q.weight) ps
      (r - total (fun p => r * p.weight / total (fun p => p.weight) ps) ps) p
    unfold need at h
    dsimp only
    generalize r * p.weight / total (fun p => p.weight) ps = share at *
    omega
  · have hle := total_shares_le r ps
    generalize total (fun p => p.weight) ps = w at *
    rw [total_add, total_add, total_leftoverKw _ hn]
    change total (fun p => p.g) ps + _ + _ ≤ _ ∧ (_ → total (fun p => p.g) ps + _ + _ = _)
    refine ⟨by omega, fun hw => ?_⟩
    have hge := Nat.le_of_mul_le_mul_right (hwhole.ge.trans (total_le_div (hpos hw))) (hpos hw)
    have hlen := List.length_filter_le (fun p : Part => decide (0 < r * p.weight)) ps
    omega

/-- The passes of a fill of a class that needs more than remains: each member is granted at most E, and together they are
granted at most the remainder, all of it where the weights are at least 1. The bound on the passes is not reached (log 14). -/
theorem fillPasses_fills (n : Nat) {r : Nat} {ps : List Part} (hlen : ps.length < n) (hn : (ps.map Part.ch).Nodup)
    (hge : ∀ p ∈ ps, p.g ≤ p.e) (hr : r < total need ps) :
    ∃ G : Part → Nat, (fillPasses n r ps).Perm (ps.map fun p => { p with g := G p }) ∧
      (∀ p ∈ ps, G p ≤ p.e) ∧ total G ps ≤ r + total (fun p => p.g) ps ∧
      ((∀ p ∈ ps, 1 ≤ p.weight) → total G ps = r + total (fun p => p.g) ps) := by
  induction n generalizing r ps with
  | zero => omega
  | succ n ih =>
    unfold fillPasses
    simp only
    split
    · next hgone =>
      simp only [List.isEmpty_iff, List.filter_eq_nil_iff, decide_eq_true_eq, Nat.not_le] at hgone
      obtain ⟨G, hG, h⟩ := finalPass_fills hn hgone hr
      exact ⟨G, .of_eq hG, h⟩
    · next hgone =>
      generalize hleaves :
        (fun p : Part => decide (need p ≤ r * p.weight / total (fun p => p.weight) ps)) = leaves at hgone ⊢
      rw [show (fun p : Part => !decide (need p ≤ r * p.weight / total (fun p => p.weight) ps)) = fun p => !leaves p by
        rw [← hleaves]]
      have hsplit (f : Part → Nat) := total_filter_add (f := f) (ps := ps) leaves
      have hleave : total need (ps.filter leaves) ≤ r := total_need_leavers_le fun p hp => by
        rw [← hleaves] at hp
        exact of_decide_eq_true hp
      have hshorter : (ps.filter fun p => !leaves p).length < n := by
        have : 0 < (ps.filter leaves).length := by
          rw [List.length_pos_iff]; simpa using hgone
        have := (List.filter_append_perm leaves ps).length_eq
        rw [List.length_append] at this
        omega
      obtain ⟨G, hG, hGe, hle, heq⟩ := ih (r := r - total need (ps.filter leaves)) hshorter
        (hn.sublist (List.filter_sublist.map Part.ch)) (fun p hp => hge p (List.mem_filter.1 hp).1)
        (by have := hsplit need; omega)
      have hmet := total_e_eq (ps := ps.filter leaves) fun p hp => hge p (List.mem_filter.1 hp).1
      have hg := hsplit fun p => p.g
      refine ⟨fun p => if leaves p = true then p.e else G p, ?_, fun p hp => ?_, ?_, fun hw => ?_⟩
      · refine .trans (.trans ?_ (.of_eq List.map_append.symm)) ((List.filter_append_perm leaves ps).map _)
        refine List.Perm.append (.of_eq (List.map_congr_left fun p hp => ?_))
          (hG.trans (.of_eq (List.map_congr_left fun p hp => ?_)))
        · simp [(List.mem_filter.1 hp).2]
        · have := (List.mem_filter.1 hp).2
          simp_all
      · dsimp only
        split
        · exact Nat.le_refl _
        · next h => exact hGe p (List.mem_filter.2 ⟨hp, by simpa using h⟩)
      · rw [total_ite (f := fun p => p.e) (g := G)]
        omega
      · have := heq fun p hp => hw p (List.mem_filter.1 hp).1
        rw [total_ite (f := fun p => p.e) (g := G)]
        omega

/-- The grants of a fill written back are a change of the grants of the class. -/
theorem mergeGrants_eq_grantClass {k : ServiceClass} {ps filled : List Part} {G : Part → Nat} (hn : (ps.map Part.ch).Nodup)
    (hf : filled.Perm (((ofClass k ps).filter fun p => decide (0 < need p)).map fun p => { p with g := G p })) :
    mergeGrants filled ps = grantClass k (fun p => if 0 < need p then G p else p.g) ps := by
  refine List.map_congr_left fun p hp => ?_
  cases hfind : filled.find? fun q => decide (q.ch = p.ch) with
  | none =>
    have hno : ¬(p.cls = k ∧ 0 < need p) := fun ⟨hk, hneed⟩ => by
      have hin : ({ p with g := G p } : Part) ∈ filled := hf.mem_iff.2 (List.mem_map.2
        ⟨p, List.mem_filter.2 ⟨mem_ofClass.2 ⟨hp, hk⟩, by simpa using hneed⟩, rfl⟩)
      simpa using List.find?_eq_none.1 hfind _ hin
    by_cases hk : p.cls = k
    · have hneed : ¬0 < need p := fun h => hno ⟨hk, h⟩
      simp only [Option.getD_none, hk, if_true, if_neg hneed]
      rw [← hk]
    · simp [hk]
  | some q =>
    obtain ⟨p', hp', rfl⟩ := List.mem_map.1 (hf.mem_iff.1 (List.mem_of_find?_eq_some hfind))
    obtain ⟨hin, hneed⟩ := List.mem_filter.1 hp'
    obtain ⟨hps, hk⟩ := mem_ofClass.1 hin
    have hch : p'.ch = p.ch := by simpa using List.find?_some hfind
    obtain rfl : p' = p := List.inj_on_of_nodup_map hn hps hp hch
    simp only [Option.getD_some, hk, if_true, of_decide_eq_true hneed]

/-! ### Stage B (R56) -/

theorem grantClass_g (k : ServiceClass) (ps : List Part) : grantClass k (fun p => p.g) ps = ps := by
  unfold grantClass
  simp

/-- Stage B at a class: no grant above E, together no more than remains, all of it where the weights are at least 1; and what
remains behind it is nothing unless every need of the class is met. -/
theorem stageBClass_grants (k : ServiceClass) (r : Nat) {ps : List Part} (hn : (ps.map Part.ch).Nodup)
    (hge : ∀ p ∈ ps, p.g ≤ p.e) :
    ∃ G : Part → Nat, (stageBClass k (r, ps)).2 = grantClass k G ps ∧ (∀ p ∈ ofClass k ps, G p ≤ p.e) ∧
      (stageBClass k (r, ps)).1 + total G (ofClass k ps) ≤ r + total (fun p => p.g) (ofClass k ps) ∧
      ((∀ p ∈ ps, 1 ≤ p.weight) →
        (stageBClass k (r, ps)).1 + total G (ofClass k ps) = r + total (fun p => p.g) (ofClass k ps)) ∧
      ((stageBClass k (r, ps)).1 = 0 ∨ ∀ p ∈ ofClass k ps, G p = p.e) := by
  have hgem : ∀ p ∈ ofClass k ps, p.g ≤ p.e := fun p hp => hge p (mem_ofClass.1 hp).1
  have hneed := total_e_eq hgem
  unfold stageBClass
  simp only
  split
  · next h0 => exact ⟨fun p => p.g, (grantClass_g k ps).symm, hgem, Nat.le_refl _, fun _ => rfl, .inl h0⟩
  · split
    · refine ⟨fun p => p.e, rfl, fun _ _ => Nat.le_refl _, ?_, fun _ => ?_, .inr fun _ _ => rfl⟩
      · dsimp only
        omega
      · dsimp only
        omega
    · next hmore =>
      have hpart (f : Part → Nat) := total_filter_add (f := f) (ps := ofClass k ps) fun p => decide (0 < need p)
      have hmet : total need ((ofClass k ps).filter fun p => !decide (0 < need p)) = 0 := by
        rw [total_congr (g := fun _ => 0) fun p hp => by simpa using (List.mem_filter.1 hp).2]
        simp [total]
      obtain ⟨G, hfill, hGe, hle, heq⟩ := fillPasses_fills ((ofClass k ps).length + 1) (r := r)
        (ps := (ofClass k ps).filter fun p => decide (0 < need p)) (Nat.lt_succ_of_le (List.length_filter_le ..))
        ((ofClass_channels_nodup hn k).sublist (List.filter_sublist.map Part.ch))
        (fun p hp => hgem p (List.mem_filter.1 hp).1) (by have := hpart need; omega)
      have hboth := total_ite (f := G) (g := fun p => p.g) (ps := ofClass k ps) fun p => decide (0 < need p)
      simp only [decide_eq_true_eq] at hboth
      have hg := hpart fun p => p.g
      refine ⟨_, mergeGrants_eq_grantClass hn hfill, fun p hp => ?_, by dsimp only; omega, fun hw => ?_, .inl rfl⟩
      · split
        · next h => exact hGe p (List.mem_filter.2 ⟨hp, by simpa using h⟩)
        · exact hgem p hp
      · have := heq fun p hp => hw p (mem_ofClass.1 (List.mem_filter.1 hp).1).1
        dsimp only
        omega

/-! ### The stages over the classes (R54, R56) -/

theorem channels_of_given {ps qs : List Part} (h : qs.map Part.asGiven = ps.map Part.asGiven) :
    qs.map Part.ch = ps.map Part.ch := by
  simpa [Function.comp_def, Part.asGiven] using congrArg (List.map fun x => x.1) h

theorem nodup_of_given {ps qs : List Part} (h : qs.map Part.asGiven = ps.map Part.asGiven) (hn : (ps.map Part.ch).Nodup) :
    (qs.map Part.ch).Nodup := by
  rwa [channels_of_given h]

/-- What holds of every participant as it is given to the round holds as long as only grants change. -/
theorem forall_of_given {ps qs : List Part} (h : qs.map Part.asGiven = ps.map Part.asGiven)
    (P : Channel × ServiceClass × Nat × Nat × Nat → Prop) (hp : ∀ p ∈ ps, P p.asGiven) : ∀ q ∈ qs, P q.asGiven := by
  intro q hq
  have hmem : q.asGiven ∈ ps.map Part.asGiven := h ▸ List.mem_map_of_mem hq
  obtain ⟨p, hp', e⟩ := List.mem_map.1 hmem
  exact e ▸ hp p hp'

theorem total_e_of_given {ps qs : List Part} (h : qs.map Part.asGiven = ps.map Part.asGiven) :
    total (fun q => q.e) qs = total (fun p => p.e) ps := by
  simpa [total, Function.comp_def, Part.asGiven] using congrArg (fun x => (x.map fun y => y.2.2.2.1).sum) h

/-- What Stage A does over the classes `ks`: it grants no more than the floors used, out of what remains. -/
structure FloorsGranted (ks : List ServiceClass) (r : Nat) (ps : List Part) (y : Nat × List Part) : Prop where
  given : y.2.map Part.asGiven = ps.map Part.asGiven
  other : ∀ j, j ∉ ks → ofClass j y.2 = ofClass j ps
  floor : ∀ q ∈ y.2, q.cls ∈ ks → q.g ≤ q.fu
  sum : y.1 + total (fun q => q.g) y.2 + (ks.map fun k => total (fun q => q.g) (ofClass k ps)).sum =
    r + total (fun q => q.g) ps

theorem foldl_stageAClass {ks : List ServiceClass} (hks : ks.Nodup) (r : Nat) {ps : List Part} (hn : (ps.map Part.ch).Nodup) :
    FloorsGranted ks r ps (ks.foldl (fun x k => stageAClass k x) (r, ps)) := by
  induction ks generalizing r ps with
  | nil => exact ⟨rfl, fun _ _ => rfl, fun _ _ h => absurd h List.not_mem_nil, rfl⟩
  | cons k ks ih =>
    obtain ⟨hk, hks⟩ := List.nodup_cons.1 hks
    obtain ⟨G, hG, hfloor, hsum⟩ := stageAClass_grants k r hn
    rw [List.foldl_cons]
    generalize stageAClass k (r, ps) = x at hG hsum
    obtain ⟨r₁, _⟩ := x
    obtain rfl : _ = grantClass k G ps := hG
    have hgiven := grantClass_given k G ps
    have h := ih hks r₁ (nodup_of_given hgiven hn)
    generalize ks.foldl (fun x k => stageAClass k x) (r₁, grantClass k G ps) = y at h
    have hown : ofClass k y.2 = (ofClass k ps).map fun p => { p with g := G p } :=
      (h.other k hk).trans (ofClass_grantClass_same k G ps)
    refine ⟨h.given.trans hgiven, fun j hj => ?_, fun q hq hcls => ?_, ?_⟩
    · rw [List.mem_cons, not_or] at hj
      obtain ⟨hjk, hj⟩ := hj
      exact (h.other j hj).trans (ofClass_grantClass_other hjk G ps)
    · rcases List.mem_cons.1 hcls with e | hcls
      · have hin := mem_ofClass.2 ⟨hq, e⟩
        rw [hown] at hin
        obtain ⟨p, hp, rfl⟩ := List.mem_map.1 hin
        exact hfloor p hp
      · exact h.floor q hq hcls
    · have hrest : (ks.map fun j => total (fun q => q.g) (ofClass j (grantClass k G ps))) =
          ks.map fun j => total (fun q => q.g) (ofClass j ps) :=
        List.map_congr_left fun j hj => by
          rw [ofClass_grantClass_other (ne_of_mem_of_not_mem hj hk)]
      have hclass := total_grantClass k G ps
      have hlater := h.sum
      rw [hrest] at hlater
      simp only [List.map_cons, List.sum_cons] at hsum ⊢
      omega

/-- What Stage B does over the classes `ks` in their order: no grant above E, no more granted than remains, all that remains
granted until every need is met, and nothing granted below a class with a curtailed participant. -/
structure NeedsFilled (ks : List ServiceClass) (r : Nat) (ps : List Part) (y : Nat × List Part) : Prop where
  given : y.2.map Part.asGiven = ps.map Part.asGiven
  other : ∀ j, j ∉ ks → ofClass j y.2 = ofClass j ps
  demand : ∀ q ∈ y.2, q.g ≤ q.e
  sum_le : y.1 + total (fun q => q.g) y.2 ≤ r + total (fun q => q.g) ps
  sum_eq : (∀ p ∈ ps, 1 ≤ p.weight) → y.1 + total (fun q => q.g) y.2 = r + total (fun q => q.g) ps
  met : y.1 = 0 ∨ ∀ q ∈ y.2, q.cls ∈ ks → q.g = q.e
  below : (∀ p ∈ ps, p.cls ∈ ks → p.g ≤ p.fu) → ks.Pairwise fun k j =>
    ∀ a ∈ y.2, a.cls = k → a.g < a.e → ∀ b ∈ y.2, b.cls = j → b.g ≤ b.fu

theorem foldl_stageBClass_zero (ks : List ServiceClass) (ps : List Part) :
    ks.foldl (fun x k => stageBClass k x) (0, ps) = (0, ps) := by
  induction ks with
  | nil => rfl
  | cons k ks ih => exact ih

theorem foldl_stageBClass {ks : List ServiceClass} (hks : ks.Nodup) (r : Nat) {ps : List Part} (hn : (ps.map Part.ch).Nodup)
    (hge : ∀ p ∈ ps, p.g ≤ p.e) : NeedsFilled ks r ps (ks.foldl (fun x k => stageBClass k x) (r, ps)) := by
  induction ks generalizing r ps with
  | nil =>
    exact ⟨rfl, fun _ _ => rfl, hge, Nat.le_refl _, fun _ => rfl, .inr fun _ _ h => absurd h List.not_mem_nil, fun _ => .nil⟩
  | cons k ks ih =>
    obtain ⟨hk, hks⟩ := List.nodup_cons.1 hks
    obtain ⟨G, hG, hGe, hle, heq, hmet⟩ := stageBClass_grants k r hn hge
    rw [List.foldl_cons]
    generalize stageBClass k (r, ps) = x at hG hle heq hmet
    obtain ⟨r₁, _⟩ := x
    obtain rfl : _ = grantClass k G ps := hG
    have hgiven := grantClass_given k G ps
    have hge₁ : ∀ q ∈ grantClass k G ps, q.g ≤ q.e := fun q hq => by
      obtain ⟨p, hp, ⟨hcls, rfl⟩ | ⟨-, rfl⟩⟩ := mem_grantClass hq
      · exact hGe p (mem_ofClass.2 ⟨hp, hcls⟩)
      · exact hge q hp
    have h := ih hks r₁ (nodup_of_given hgiven hn) hge₁
    have hstop : r₁ = 0 → ks.foldl (fun x k => stageBClass k x) (r₁, grantClass k G ps) = (0, grantClass k G ps) :=
      fun h0 => h0 ▸ foldl_stageBClass_zero ks _
    generalize ks.foldl (fun x k => stageBClass k x) (r₁, grantClass k G ps) = y at h hstop
    have hown : ∀ q ∈ y.2, q.cls = k → ∃ p ∈ ofClass k ps, q = { p with g := G p } := fun q hq e => by
      have hin := mem_ofClass.2 ⟨hq, e⟩
      rw [h.other k hk, ofClass_grantClass_same] at hin
      obtain ⟨p, hp, e⟩ := List.mem_map.1 hin
      exact ⟨p, hp, e.symm⟩
    have hclass := total_grantClass k G ps
    refine ⟨h.given.trans hgiven, fun j hj => ?_, h.demand, ?_, fun hw => ?_, ?_, fun hfu => ?_⟩
    · rw [List.mem_cons, not_or] at hj
      obtain ⟨hjk, hj⟩ := hj
      exact (h.other j hj).trans (ofClass_grantClass_other hjk G ps)
    · have := h.sum_le
      simp only at hle
      omega
    · have hlater := h.sum_eq (forall_of_given hgiven (fun x => 1 ≤ x.2.2.1) hw)
      have := heq hw
      simp only at this
      omega
    · rcases hmet with h0 | hmet
      · exact .inl (by rw [hstop h0])
      · refine h.met.imp_right fun hall q hq hcls => ?_
        rcases List.mem_cons.1 hcls with e | hcls
        · obtain ⟨p, hp, rfl⟩ := hown q hq e
          exact hmet p hp
        · exact hall q hq hcls
    · have hlater : ∀ q ∈ grantClass k G ps, q.cls ∈ ks → q.g ≤ q.fu := fun q hq hcls => by
        obtain ⟨p, hp, ⟨e, rfl⟩ | ⟨-, rfl⟩⟩ := mem_grantClass hq
        · exact absurd (e ▸ hcls) hk
        · exact hfu q hp (List.mem_cons_of_mem k hcls)
      refine List.pairwise_cons.2 ⟨fun j hj a ha hcls hcurtailed b hb hbj => ?_, h.below hlater⟩
      rcases hmet with h0 | hmet
      · rw [hstop h0] at hb
        exact hlater b hb (hbj ▸ hj)
      · obtain ⟨p, hp, rfl⟩ := hown a ha hcls
        exact absurd hcurtailed (by simp [hmet p hp])

/-! ### The allocation (R54 to R59) -/

theorem classOrder_nodup : classOrder.Nodup := by decide

theorem mem_classOrder (k : ServiceClass) : k ∈ classOrder := by
  cases k <;> decide

theorem stageA_grants (c : Nat) {ps : List Part} (hn : (ps.map Part.ch).Nodup) :
    (stageA c ps).2.map Part.asGiven = ps.map Part.asGiven ∧ (∀ q ∈ (stageA c ps).2, q.g ≤ q.fu) ∧
      (stageA c ps).1 + total (fun q => q.g) (stageA c ps).2 = c := by
  have h := foldl_stageAClass classOrder_nodup c hn
  have hsum := h.sum
  rw [sum_classOrder] at hsum
  exact ⟨h.given, fun q hq => h.floor q hq (mem_classOrder _), Nat.add_right_cancel hsum⟩

/-- An allocation, from Stage B behind Stage A: its participants, and all that its grants keep to. -/
theorem allocate_filled {c : Nat} {ps qs : List Part} (hqs : qs = allocate c ps) (hn : (ps.map Part.ch).Nodup)
    (hfu : ∀ p ∈ ps, p.fu ≤ p.e) :
    ∃ r : Nat, qs.map Part.asGiven = ps.map Part.asGiven ∧ (∀ q ∈ qs, q.g ≤ q.e) ∧ r + total (fun q => q.g) qs ≤ c ∧
      ((∀ p ∈ ps, 1 ≤ p.weight) → r + total (fun q => q.g) qs = c) ∧ (r = 0 ∨ ∀ q ∈ qs, q.g = q.e) ∧
      classOrder.Pairwise fun k j => ∀ a ∈ qs, a.cls = k → a.g < a.e → ∀ b ∈ qs, b.cls = j → b.g ≤ b.fu := by
  obtain ⟨hgiven, hfloor, hsum⟩ := stageA_grants c hn
  rw [hqs]
  unfold allocate
  generalize stageA c ps = x at hgiven hfloor hsum ⊢
  have hfue := forall_of_given hgiven (fun x => x.2.2.2.2 ≤ x.2.2.2.1) hfu
  have h := foldl_stageBClass classOrder_nodup x.1 (nodup_of_given hgiven hn)
    fun p hp => (hfloor p hp).trans (hfue p hp)
  exact ⟨(stageB x).1, h.given.trans hgiven, h.demand, h.sum_le.trans hsum.le,
    fun hw => (h.sum_eq (forall_of_given hgiven (fun x => 1 ≤ x.2.2.1) hw)).trans hsum,
    h.met.imp_right fun hall q hq => hall q hq (mem_classOrder _), h.below fun p hp _ => hfloor p hp⟩

theorem channels_nodup_of_ascending {ps : List Part} (h : ps.Pairwise fun a b => a.ch < b.ch) : (ps.map Part.ch).Nodup :=
  List.pairwise_map.2 (h.imp fun hlt => hlt.ne)

/-- Settles O38: the invariants of Stage A and Stage B over the classes. -/
theorem allocationKeepsThreeLaws : Obligations.AllocationKeepsThreeLaws := by
  unfold Obligations.AllocationKeepsThreeLaws
  intro c ps qs hasc hfu hqs
  obtain ⟨r, hgiven, hdemand, hsum, -, -, hbelow⟩ := allocate_filled hqs (channels_nodup_of_ascending hasc) hfu
  refine ⟨hgiven, by omega, hdemand, fun i j a b ha hb hi hj hij hcurtailed => ?_⟩
  obtain ⟨hi', hia⟩ := List.getElem?_eq_some_iff.1 hi
  obtain ⟨hj', hjb⟩ := List.getElem?_eq_some_iff.1 hj
  exact List.pairwise_iff_getElem.1 hbelow i j hi' hj' hij a ha hia.symm hcurtailed b hb hjb.symm

/-- Settles O39: what remains behind the allocation is nothing, or every demand is met. -/
theorem allocationSharesAllOfCapacity : Obligations.AllocationSharesAllOfCapacity := by
  unfold Obligations.AllocationSharesAllOfCapacity
  intro c ps qs hasc hfu hw hqs
  obtain ⟨r, hgiven, hdemand, -, hsum, hmet, -⟩ := allocate_filled hqs (channels_nodup_of_ascending hasc) hfu
  have hall := hsum hw
  have hle : total (fun q => q.g) qs ≤ total (fun q => q.e) qs := total_le hdemand
  have htotal : total (fun q => q.g) qs = min c (total (fun p => p.e) ps) := by
    rw [← total_e_of_given hgiven]
    rcases hmet with h0 | hmet
    · omega
    · have := total_congr (f := fun q => q.g) (g := fun q => q.e) hmet
      omega
  refine ⟨htotal, fun h0 q hq => ?_, fun hc => eq_of_total_le hdemand ?_⟩
  · have := le_total (f := fun q => q.g) hq
    omega
  · rw [total_e_of_given hgiven, htotal]
    omega

end Sys2Proof.Machine
end

section
/-! A sample event (R160 to R163): the input record, the SENSOR raise, and what a branch sample hands on to the warm-up of its outlet
(R63) and to the step that holds its claim (R147, R148, R152). -/

namespace Sys2Proof.Machine

/-! ### The input record (R160) -/

theorem eq_readingValid {i : InputId} {r : Int} {valid : Bool} (hbranch : i ≠ 48 → valid = decide (-200 ≤ r ∧ r ≤ 2000))
    (hheader : i = 48 → valid = decide (0 ≤ r ∧ r ≤ 1600)) : readingValid i r = valid := by
  unfold readingValid headerInput
  by_cases h : i = 48
  · rw [if_pos h, hheader h, Bool.decide_and]
  · rw [if_neg h, hbranch h, Bool.decide_and]

theorem sampleRecord_valid (r : Int) (x : Sensor) : ((sampleRecord true r x).faulted = true ↔
    x.faulted = true ∧ x.goodRun < 2) := by
  have h : x.goodRun + 1 < 3 ↔ x.goodRun < 2 := by omega
  simp [sampleRecord, h]

theorem sampleRecord_invalid (r : Int) (x : Sensor) : ((sampleRecord false r x).faulted = true ↔
    x.faulted = true ∨ 1 ≤ x.badRun) := by
  have h : 2 ≤ x.badRun + 1 ↔ 1 ≤ x.badRun := by omega
  simp [sampleRecord, h]

/-- The state with the record written and SENSOR raised at a fault entry or exit, before anything is handed on. -/
def sampledState (i : InputId) (y : Sensor) (s : State) : State :=
  if y.faulted = (s.sensor i).faulted then s.setSensor i y else raise .sensor (s.setSensor i y)

section
variable (i : InputId) (y : Sensor) (s : State)

@[simp] theorem sampledState_sensors : (sampledState i y s).sensors = s.sensors.set i y := by
  unfold sampledState
  split <;> simp [State.setSensor]

@[simp] theorem sampledState_outlet (c : Channel) : (sampledState i y s).outlet c = s.outlet c := by
  unfold sampledState
  split <;> simp [State.outlet]

@[simp] theorem sampledState_claim (c : Channel) : (sampledState i y s).claim c = s.claim c := by
  unfold sampledState
  split <;> simp [State.claim]

@[simp] theorem sampledState_slot (j : SlotId) : (sampledState i y s).slot j = s.slot j := by
  unfold sampledState
  split <;> simp [State.slot]

end

/-! ### Warm-up (R63) -/

/-- Warm-up completion by a reading, from the outlet it may end it for. -/
theorem eq_sampleWarmUp {c : Channel} {r : Int} {s w : State}
    (hwarm : ∀ o, s.outlet c = some o → o.state = .warming → o.fixed.warmTemp ≤ r →
      w = s.setOutlet c (some { o with state := .serving, warmTimer := none }))
    (hstay : (∀ o, s.outlet c = some o → o.state ≠ .warming ∨ r < o.fixed.warmTemp) → w = s) : w = sampleWarmUp c r s := by
  by_cases h : ∃ o, s.outlet c = some o ∧ o.state = .warming ∧ o.fixed.warmTemp ≤ r
  · obtain ⟨o, ho, hs, ht⟩ := h
    rw [hwarm o ho hs ht, sampleWarmUp, modifyOutlet_present _ ho, if_pos ⟨hs, ht⟩]
    rfl
  · have hno : ∀ o, s.outlet c = some o → ¬(o.state = .warming ∧ o.fixed.warmTemp ≤ r) := fun o ho hx => h ⟨o, ho, hx⟩
    rw [hstay fun o ho => by have := hno o ho; rw [not_and_or, Int.not_le] at this; exact this, sampleWarmUp,
      modifyOutlet_unchanged fun o ho => if_neg (hno o ho)]

/-! ### The step that holds the claim (R147, R148, R152) -/

theorem tempHolder_free {c : Channel} {s : State} (h : (s.claim c).holder = none) : tempHolder c s = none := by
  simp [tempHolder, h]

theorem tempHolder_claimed {c : Channel} {s : State} {h : Holder} {st : Step} (hh : (s.claim c).holder = some h)
    (hst : (s.slot h.slot).currentStep = some st) :
    tempHolder c s = if st.targetTemp ≠ 0 then some (h.slot, st) else none := by
  simp [tempHolder, hh, hst, Step.needsTemp]

/-- A step that needs no temperature, or only waits for the claim, takes no sample and no fault entry. -/
theorem sampleStep_none {c : Channel} (r : Int) {s : State}
    (h : ∀ i st, tempHolder c s = some (i, st) → (s.slot i).phase = .claiming) : sampleStep c r s = s := by
  unfold sampleStep
  split
  · rfl
  · next i st ht => simp [h i st ht]

theorem sensorFailure_none {c : Channel} {s : State}
    (h : ∀ i st, tempHolder c s = some (i, st) → (s.slot i).phase = .claiming) : sensorFailure c s = s := by
  unfold sensorFailure
  split
  · rfl
  · next i st ht => simp [h i st ht]

theorem sensorFailure_fails {c : Channel} {s : State} {i : SlotId} {st : Step} (h : tempHolder c s = some (i, st))
    (hp : (s.slot i).phase = .reaching ∨ (s.slot i).phase = .holding) : sensorFailure c s = runDuty [.fail i .sensor] s := by
  rcases hp with hp | hp <;> simp [sensorFailure, h, hp]

theorem sampleStep_reaching {c : Channel} (r : Int) {s : State} {i : SlotId} {st : Step} (h : tempHolder c s = some (i, st))
    (hp : (s.slot i).phase = .reaching) : sampleStep c r s = if st.targetTemp ≤ r then reachTemp i st s else s := by
  simp [sampleStep, h, hp]

theorem sampleStep_holding {c : Channel} (r : Int) {s : State} {i : SlotId} {st : Step} (h : tempHolder c s = some (i, st))
    (hp : (s.slot i).phase = .holding) : sampleStep c r s = if r < st.targetTemp - 20 then dip i st s else s := by
  simp [sampleStep, h, hp]

theorem reachTemp_eq (i : SlotId) (st : Step) (s : State) : reachTemp i st s =
    if st.holdMin = 0 then
      runDuty [.pass i] (s.setSlot i { s.slot i with phase := .holding, reach := none, hold := some (st.holdMin * 60) })
    else s.setSlot i { s.slot i with phase := .holding, reach := none, hold := some (st.holdMin * 60) } := rfl

theorem dip_third {i : SlotId} (st : Step) {s : State} (h : (s.slot i).dips = 2) :
    dip i st s = runDuty [.fail i .unstable] (s.setSlot i { s.slot i with dips := 3 }) := by
  simp [dip, h, State.modifySlot]

theorem State.setSlot_setSlot (s : State) (i : SlotId) (x y : ProgSlot) : (s.setSlot i x).setSlot i y = s.setSlot i y := by
  simp [State.setSlot]

theorem dip_other {i : SlotId} (st : Step) {s : State} (h : (s.slot i).dips ≠ 2) : dip i st s = s.setSlot i { s.slot i with
    dips := (s.slot i).dips + 1, phase := .reaching, hold := none, reach := some (st.reachMin * 60) } := by
  simp only [dip]
  rw [if_neg (by omega)]
  simp [State.modifySlot, State.slot_setSlot, State.setSlot_setSlot]

/-! ### What a branch sample hands on (R162) -/

theorem handSample_good {c : Channel} {valid : Bool} {x : Sensor} (r : Int) (before : Sensor) (s : State)
    (h : valid = true ∧ x.faulted = false) : handSample c valid r before x s = sampleStep c r (sampleWarmUp c r s) :=
  if_pos h

theorem handSample_bad {c : Channel} {valid : Bool} {x : Sensor} (r : Int) (before : Sensor) (s : State)
    (h : valid = false ∨ x.faulted = true) : handSample c valid r before x s =
      if before.faulted = false ∧ x.faulted = true then sensorFailure c s else s := by
  refine if_neg fun ⟨hv, hf⟩ => ?_
  rcases h with h | h
  · simp [hv] at h
  · simp [hf] at h

/-- Only warm-up takes a sample where no step waits for a temperature: the claim is free, or its step needs none or waits. -/
theorem handSample_warmUp {c : Channel} {valid : Bool} {r : Int} {before x : Sensor} {s w : State}
    (hnone : ∀ i st, tempHolder c s = some (i, st) → (s.slot i).phase = .claiming)
    (hgood : valid = true ∧ x.faulted = false → w = sampleWarmUp c r s) (hbad : valid = false ∨ x.faulted = true → w = s) :
    handSample c valid r before x s = w := by
  by_cases h : valid = true ∧ x.faulted = false
  · rw [handSample_good r before s h, hgood h, sampleStep_none]
    exact hnone
  · have h' : valid = false ∨ x.faulted = true := by
      rwa [not_and_or, Bool.not_eq_true, Bool.not_eq_false] at h
    rw [handSample_bad r before s h', hbad h', sensorFailure_none hnone, ite_self]

theorem sampleEvent_branch {i : InputId} {c : Channel} (r : Int) (s : State) (h : c.val = i.val) :
    sampleEvent i r s = handSample c (readingValid i r) r (s.sensor i) (sampleRecord (readingValid i r) r (s.sensor i))
      (sampledState i (sampleRecord (readingValid i r) r (s.sensor i)) s) := by
  have hc : channelOf i.val = some c := by
    rw [← h]
    simp [channelOf]
  simp only [sampleEvent, hc]
  rfl

theorem sampleEvent_plant {i : InputId} (r : Int) (s : State) (h : 48 ≤ i.val) :
    sampleEvent i r s = sampledState i (sampleRecord (readingValid i r) r (s.sensor i)) s := by
  have hc : channelOf i.val = none := dif_neg (by omega)
  simp only [sampleEvent, hc]
  rfl

/-! ### The other input records -/

theorem runDuty_sensors (ts : List DutyTask) (s : State) : (runDuty ts s).sensors = s.sensors := by
  obtain ⟨-, -, -, -, -, -, -, -, -, hsensors, -⟩ := runDuty_frame ts s
  exact hsensors

theorem sampleStep_sensors (c : Channel) (r : Int) (s : State) : (sampleStep c r s).sensors = s.sensors := by
  have hreach (i : SlotId) (st : Step) : (reachTemp i st s).sensors = s.sensors := by
    rw [reachTemp_eq]
    split
    · exact runDuty_sensors _ _
    · rfl
  have hdip (i : SlotId) (st : Step) : (dip i st s).sensors = s.sensors := by
    by_cases h : (s.slot i).dips = 2
    · rw [dip_third st h]
      exact runDuty_sensors _ _
    · rw [dip_other st h]
      rfl
  unfold sampleStep
  split
  · rfl
  · split
    · split
      · exact hreach _ _
      · rfl
    · split
      · exact hdip _ _
      · rfl
    · rfl
    · rfl

theorem sensorFailure_sensors (c : Channel) (s : State) : (sensorFailure c s).sensors = s.sensors := by
  unfold sensorFailure
  split
  · rfl
  · split
    · exact runDuty_sensors _ _
    · exact runDuty_sensors _ _
    · rfl
    · rfl

theorem handSample_sensors (c : Channel) (valid : Bool) (r : Int) (before x : Sensor) (s : State) :
    (handSample c valid r before x s).sensors = s.sensors := by
  unfold handSample
  split
  · exact sampleStep_sensors c r _
  · split
    · exact sensorFailure_sensors c s
    · rfl

theorem sampleEvent_sensors (i : InputId) (r : Int) (s : State) :
    (sampleEvent i r s).sensors = s.sensors.set i (sampleRecord (readingValid i r) r (s.sensor i)) := by
  by_cases h : i.val < 48
  · rw [sampleEvent_branch (c := ⟨i.val, h⟩) r s rfl, handSample_sensors, sampledState_sensors]
  · rw [sampleEvent_plant r s (by omega), sampledState_sensors]

/-- Settles O53: the record, and the two consumers of a branch sample by the case of the step that holds the claim. -/
theorem sampleEventMovesRecord : Obligations.SampleEventMovesRecord := by
  unfold Obligations.SampleEventMovesRecord
  intro s i r valid hrst hbranch hheader
  have hvalid := eq_readingValid hbranch hheader
  have hsensors := sampleEvent_sensors i r s
  have hhand (c : Channel) (hc : c.val = i.val) := sampleEvent_branch r s hc
  have hplant := sampleEvent_plant (i := i) r s
  rw [hvalid] at hsensors hhand hplant
  refine ⟨s.sensor i, sampleRecord valid r (s.sensor i), sampleEvent i r s, sampledState i (sampleRecord valid r (s.sensor i)) s,
    rfl, running_next _ s hrst, hsensors, ?_, ?_, rfl, hplant, ?_, ?_⟩
  · rintro rfl
    exact ⟨rfl, rfl, rfl, sampleRecord_valid r _⟩
  · rintro rfl
    exact ⟨rfl, rfl, rfl, sampleRecord_invalid r _⟩
  · intro c h st z w hc hh hz hst hwarm hstay
    rw [hhand c hc]
    generalize hu : sampledState i (sampleRecord valid r (s.sensor i)) s = u at hwarm hstay ⊢
    have ho : u.outlet c = s.outlet c := hu ▸ sampledState_outlet ..
    have hslot : u.slot h.slot = z := hu ▸ (sampledState_slot ..).trans hz.symm
    have hholder : tempHolder c u = if st.targetTemp ≠ 0 then some (h.slot, st) else none :=
      tempHolder_claimed (by rw [← hu, sampledState_claim, hh]) (by rw [hslot, hst])
    generalize sampleRecord valid r (s.sensor i) = y at *
    have hgood : valid = true ∧ y.faulted = false → w = sampleWarmUp c r u := fun ⟨hv, hf⟩ =>
      eq_sampleWarmUp (fun o ho' hs ht => hwarm o (ho ▸ ho') hs hv hf ht)
        fun hno => hstay (.inr (.inr fun o ho' => hno o (ho ▸ ho')))
    have hbad : valid = false ∨ y.faulted = true → w = u := fun h => hstay (h.imp_right .inl)
    have htaken (ht : st.targetTemp ≠ 0) (hv : valid = true) (hf : y.faulted = false) :
        handSample c valid r (s.sensor i) y u = sampleStep c r w ∧ tempHolder c w = some (h.slot, st) ∧ w.slot h.slot = z := by
      rw [handSample_good r _ u ⟨hv, hf⟩, hgood ⟨hv, hf⟩]
      exact ⟨rfl, hholder.trans (if_pos ht), hslot⟩
    refine ⟨fun hno => ?_, fun ht hv hf hp => ?_, fun ht hv hf hp => ?_, fun ht hp hx hf => ?_, fun hv hx => ?_⟩
    · refine handSample_warmUp (fun j st' hj => ?_) hgood hbad
      rw [hholder] at hj
      split at hj
      · next ht =>
        cases hj
        rw [hslot]
        exact hno.resolve_left ht
      · cases hj
    · obtain ⟨heq, hw, hwz⟩ := htaken ht hv hf
      rw [heq, sampleStep_reaching r hw (hwz ▸ hp), reachTemp_eq, hwz]
      refine ⟨fun hr => if_neg (by omega), ?_⟩
      rintro v rfl
      exact ⟨fun hr h0 => by rw [if_pos hr, if_neg (by omega)], fun hr h0 => by rw [if_pos hr, if_pos h0]⟩
    · obtain ⟨heq, hw, hwz⟩ := htaken ht hv hf
      rw [heq, sampleStep_holding r hw (hwz ▸ hp)]
      refine ⟨fun hr => if_neg (by omega), fun hr hd => ?_, fun hr hd => ?_⟩
      · rw [if_pos hr, dip_other st (hwz ▸ hd), hwz]
      · rw [if_pos hr, dip_third st (hwz ▸ hd), hwz]
    · rw [handSample_bad r _ u (.inr hf), if_pos ⟨hx, hf⟩]
      exact sensorFailure_fails (hholder.trans (if_pos ht)) (hslot ▸ hp)
    · rw [handSample_bad r _ u hv, if_neg]
      rintro ⟨h₁, h₂⟩
      rw [hx, h₁] at h₂
      cases h₂
  · intro c hc hfree
    rw [hhand c hc]
    generalize hu : sampledState i (sampleRecord valid r (s.sensor i)) s = u
    have ho : u.outlet c = s.outlet c := hu ▸ sampledState_outlet ..
    have hnone : tempHolder c u = none := tempHolder_free (by rw [← hu, sampledState_claim, hfree])
    generalize sampleRecord valid r (s.sensor i) = y at *
    refine ⟨fun o ho' hs hv hf ht => ?_, fun hno => ?_⟩
    · refine handSample_warmUp (by simp [hnone]) (fun _ => ?_) (by simp [hv, hf])
      rw [sampleWarmUp, modifyOutlet_present _ (ho.trans ho'), if_pos ⟨hs, ht⟩]
      rfl
    · refine handSample_warmUp (by simp [hnone]) (fun ⟨hv, hf⟩ => ?_) fun _ => rfl
      refine eq_sampleWarmUp (fun o ho' hs ht => ?_) fun _ => rfl
      rcases hno with h | h | h
      · simp [hv] at h
      · simp [hf] at h
      · exact absurd ht (by have := (h o (ho ▸ ho')).resolve_left (fun e => e hs); omega)

end Sys2Proof.Machine
end

section
/-! What a round writes for its participants (R59 to R62, R66): the records, the targets of the grants, and the feeder demand. -/

namespace Sys2Proof.Machine

/-! ### The records of the participants (R59, R61, R62) -/

theorem State.activeProfile_congr {s t : State} (h : t.pools = s.pools) (o : Outlet) :
    t.activeProfile o = s.activeProfile o := by
  rw [State.activeProfile, State.activeProfile, State.pool_congr h]

/-- The record of a participant after its grant: STATE and warm timer by R61 and R62, GRANT and EFF_DEMAND (R59). -/
def grantedRecord (s : State) (q : Part) (o : Outlet) : Outlet :=
  { afterGrant q.g (s.activeProfile o).warmKw o with grant := q.g, effDemand := q.e }

theorem grantedRecord_congr {s t : State} (h : t.pools = s.pools) (q : Part) : grantedRecord t q = grantedRecord s q := by
  funext o
  rw [grantedRecord, grantedRecord, State.activeProfile_congr h]

theorem grantOutlet_eq (s : State) (q : Part) : grantOutlet s q = s.modifyOutlet q.ch (grantedRecord s q) := rfl

@[simp] theorem foldl_grantOutlet_pools (ps : List Part) (s : State) : (ps.foldl grantOutlet s).pools = s.pools :=
  List.foldlRecOn (motive := fun u : State => u.pools = s.pools) ps _ rfl fun _ hu _ _ => hu

theorem foldl_grantOutlet_other {ps : List Part} {c : Channel} (s : State) (h : ∀ q ∈ ps, q.ch ≠ c) :
    (ps.foldl grantOutlet s).outlet c = s.outlet c :=
  List.foldlRecOn (motive := fun u : State => u.outlet c = s.outlet c) ps _ rfl fun u hu q hq => by
    rw [grantOutlet_eq, State.outlet_modifyOutlet, if_neg (h q hq), hu]

/-- Each participant is granted once, from the record the round found. -/
theorem foldl_grantOutlet_participant {ps : List Part} {q : Part} (s : State) (hn : (ps.map Part.ch).Nodup) (hq : q ∈ ps) :
    (ps.foldl grantOutlet s).outlet q.ch = (s.outlet q.ch).map (grantedRecord s q) := by
  induction ps generalizing s with
  | nil => cases hq
  | cons p ps ih =>
    obtain ⟨hp, hn⟩ := List.nodup_cons.1 hn
    rw [List.foldl_cons]
    rcases List.mem_cons.1 hq with rfl | hq
    · rw [foldl_grantOutlet_other _ fun q' hq' e => hp (List.mem_map.2 ⟨q', hq', e⟩), grantOutlet_eq,
        State.outlet_modifyOutlet, if_pos rfl]
    · have hne : p.ch ≠ q.ch := fun e => hp (List.mem_map.2 ⟨q, hq, e.symm⟩)
      have hpools : (grantOutlet s p).pools = s.pools := rfl
      rw [ih _ hn hq, grantedRecord_congr hpools, grantOutlet_eq, State.outlet_modifyOutlet, if_neg hne]

/-- The tables of R61 and R62, a line of them each. -/
theorem afterGrant_zero {g : Nat} (w : Nat) (o : Outlet) (hg : g = 0) :
    afterGrant g w o = { o with state := .idle, warmTimer := none } := if_pos hg

theorem afterGrant_idle_warm {g w : Nat} {o : Outlet} (hg : 0 < g) (hs : o.state = .idle) (hp : o.fixed.pool = .steam)
    (hw : 0 < w) : afterGrant g w o =
      { o with state := .warming, warmTimer := if o.fixed.warmMaxS = 0 then none else some o.fixed.warmMaxS } := by
  have hg' : g ≠ 0 := by omega
  simp only [afterGrant, hg', if_false, hs, hp, hw, and_self, if_true]
  by_cases h : o.fixed.warmMaxS = 0
  · simp [h]
  · simp [h, Nat.pos_of_ne_zero h]

theorem afterGrant_idle_serve {g w : Nat} {o : Outlet} (hg : 0 < g) (hs : o.state = .idle)
    (hno : o.fixed.pool ≠ .steam ∨ w = 0) : afterGrant g w o = { o with state := .serving } := by
  have hg' : g ≠ 0 := by omega
  have hno' : ¬(o.fixed.pool = .steam ∧ 0 < w) := by
    rintro ⟨hp, hw⟩
    exact hno.elim (fun h => h hp) (by omega)
  simp only [afterGrant, hg', if_false, hs, hno']

theorem afterGrant_warming {g : Nat} (w : Nat) {o : Outlet} (hg : 0 < g) (hs : o.state = .warming) :
    afterGrant g w o = if 0 < w then o else { o with state := .serving, warmTimer := none } := by
  have hg' : g ≠ 0 := by omega
  simp only [afterGrant, hg', if_false, hs]

theorem afterGrant_serving {g : Nat} (w : Nat) {o : Outlet} (hg : 0 < g) (hs : o.state = .serving) : afterGrant g w o = o := by
  have hg' : g ≠ 0 := by omega
  simp only [afterGrant, hg', if_false, hs]

/-! ### Targets and feeder demand (R60, R66) -/

/-- The valve target is the grant in thousandths of RATED_KW, rounded half up. -/
theorem targetOf_rounds (g : Nat) {rated : Nat} (hr : 0 < rated) :
    2 * g * 1000 < (2 * targetOf g rated + 1) * rated ∧ 2 * targetOf g rated * rated ≤ 2 * g * 1000 + rated := by
  have hlow := Nat.div_mul_le_self (g * 1000 + rated / 2) rated
  have hhigh := Nat.lt_div_mul_add (a := g * 1000 + rated / 2) hr
  have h₁ : (2 * targetOf g rated + 1) * rated = 2 * (targetOf g rated * rated) + rated := by ring
  have h₂ : 2 * targetOf g rated * rated = 2 * (targetOf g rated * rated) := by ring
  rw [h₁, h₂]
  change targetOf g rated * rated ≤ _ at hlow
  change _ < targetOf g rated * rated + rated at hhigh
  omega

theorem targetOf_zero {rated : Nat} (hr : 0 < rated) : targetOf 0 rated = 0 :=
  Nat.div_eq_of_lt (by omega)

theorem targetOf_rated {rated : Nat} (hr : 0 < rated) : targetOf rated rated = 1000 := by
  rw [targetOf, Nat.mul_add_div hr, Nat.div_eq_of_lt (by omega), Nat.add_zero]

theorem targetOf_mono {g h : Nat} (rated : Nat) (hgh : g ≤ h) : targetOf g rated ≤ targetOf h rated :=
  Nat.div_le_div_right (by omega)

/-- A shortfall over the coil yield, rounded up. -/
theorem ceilDiv_bounds (n : Nat) {y : Nat} (hy : 0 < y) : n ≤ (n + y - 1) / y * y ∧ (n + y - 1) / y * y < n + y := by
  have hlow := Nat.div_mul_le_self (n + y - 1) y
  have hhigh := Nat.lt_div_mul_add (a := n + y - 1) hy
  omega

theorem feederStage_none {h : HwPool} {s : State} (ps : List Part) (a : Nat) (hf : (s.hwPart h).feeder = none) :
    feederStage (.hw h) ps a s = s := by
  simp [feederStage, hf]

theorem feederStage_feeder {h : HwPool} {s : State} {c : Channel} (ps : List Part) (a : Nat)
    (hf : (s.hwPart h).feeder = some c) : feederStage (.hw h) ps a s = s.modifyOutlet c fun o => { o with
      feederDemand := feederDemandOf (total (fun q => q.e) ps) a (s.hwPart h).coilYieldPct o.fixed.ratedKw } := by
  simp [feederStage, hf]

/-- Settles O40: the records by induction over the participants, and the round's arithmetic. -/
theorem grantsSetStatesAndTargets : Obligations.GrantsSetStatesAndTargets := by
  unfold Obligations.GrantsSetStatesAndTargets
  refine ⟨fun s ps hasc => ⟨fun q hq o ho => ?_, fun c hc => foldl_grantOutlet_other s hc⟩, fun g w o => ?_,
    fun g rated hr hg => ?_, fun p s ps => rfl, fun p s ps a => ⟨?_, ?_⟩,
    fun se a y rated hy => ⟨fun h => if_pos h, fun h => ?_⟩⟩
  · rw [foldl_grantOutlet_participant s (channels_nodup_of_ascending hasc) hq, ho]
    rfl
  · exact ⟨afterGrant_zero w o, afterGrant_idle_warm, afterGrant_idle_serve,
      fun hg hs hw => (afterGrant_warming w hg hs).trans (if_pos hw),
      fun hg hs hw => (afterGrant_warming w hg hs).trans (if_neg (by omega)), afterGrant_serving w⟩
  · refine ⟨(targetOf_mono rated hg).trans (targetOf_rated hr).le, ?_, ?_, targetOf_rounds g hr⟩
    · rintro rfl
      exact targetOf_zero hr
    · rintro rfl
      exact targetOf_rated hr
  · rintro rfl
    rfl
  · rintro h rfl
    refine ⟨feederStage_none ps a, fun c o hf ho => ?_⟩
    rw [feederStage_feeder ps a hf, modifyOutlet_present _ ho]
  · refine ⟨((se - a) * 100 + y - 1) / y, if_neg (by omega), ceilDiv_bounds _ hy⟩

end Sys2Proof.Machine
end

section
/-! What an event of targets and slot grants keeps besides the outlet records: no homing request is made in it, since both limits active
is its one fault (R103, R121), and PROFILE is raised by no step or fault of it. -/

namespace Sys2Proof.Machine

/-! ### The pending set (R183) -/

theorem State.isPending_congr {s t : State} (h : t.link = s.link) (k : NoticeKind) : t.isPending k = s.isPending k := by
  rw [State.isPending, State.isPending, h]

/-- A raise makes its own kind pending and no other. -/
theorem raise_isPending (k j : NoticeKind) (s : State) : (raise k s).isPending j = (s.isPending j || decide (j = k)) := by
  have hbit : (((s.link.notices ||| k.bit) &&& j.bit != 0) : Bool) = (s.isPending j || decide (j = k)) := by
    unfold State.isPending
    by_cases hj : j = k
    · have hkind : k.bit ≠ 0 := by cases k <;> decide
      have hown : (s.link.notices ||| k.bit) &&& k.bit = k.bit := by
        ext i hi
        simp +contextual
      rw [hj, hown]
      simpa using hkind
    · have hapart : k.bit &&& j.bit = 0 := by
        revert hj
        cases j <;> cases k <;> decide
      have hother : (s.link.notices ||| k.bit) &&& j.bit = s.link.notices &&& j.bit ||| k.bit &&& j.bit := by
        ext i hi
        simp [Bool.and_or_distrib_right]
      simp [hother, hapart, hj]
  rcases raise_cases k s with ⟨h, e⟩ | ⟨-, -, e⟩ | ⟨-, -, e⟩
  · rw [e]
    by_cases hj : j = k
    · simp [hj, h]
    · simp [hj]
  · rw [e]
    exact hbit
  · rw [e]
    exact hbit

theorem raise_isPending_other {k j : NoticeKind} (h : j ≠ k) (s : State) : (raise k s).isPending j = s.isPending j := by
  rw [raise_isPending, decide_eq_false h, Bool.or_false]

/-! ### The duty steps raise PROGRAM alone -/

theorem releaseStep_link (i : SlotId) (s : State) : (releaseStep i s).1.link = s.link := by
  unfold releaseStep
  split
  · rfl
  · simp only
    split <;> rfl

theorem beginStep_link (i : SlotId) (idx : Nat) (s : State) : (beginStep i idx s).1.link = s.link := by
  unfold beginStep
  split
  · rfl
  · simp only
    split
    · rfl
    · split <;> rfl

theorem takeClaim_link (c : Channel) (i : SlotId) (s : State) : (takeClaim c i s).1.link = s.link := by
  unfold takeClaim
  split
  · rfl
  · simp only
    split
    · split <;> rfl
    · rfl

theorem passOnClaim_link (c : Channel) (s : State) : (passOnClaim c s).1.link = s.link := by
  unfold passOnClaim
  split <;> rfl

theorem endPass_isPending {k : NoticeKind} (hk : k ≠ .program) (i : SlotId) (s : State) :
    (endPass i s).isPending k = s.isPending k := by
  unfold endPass
  simp only
  generalize (if (s.slot i).loops = 0 then (s.slot i).loopsLeft else (s.slot i).loopsLeft - 1) = left
  split
  · exact raise_isPending_other hk _
  · split <;> rfl

theorem runTask_isPending {k : NoticeKind} (hk : k ≠ .program) (task : DutyTask) (s : State) :
    (runTask task s).1.isPending k = s.isPending k := by
  cases task with
  | begin_ i idx => exact State.isPending_congr (beginStep_link i idx s) k
  | take c i => exact State.isPending_congr (takeClaim_link c i s) k
  | passOn c => exact State.isPending_congr (passOnClaim_link c s) k
  | pass i => exact State.isPending_congr (releaseStep_link i (recordResult i .passed s)) k
  | fail i r => exact State.isPending_congr (releaseStep_link i s) k
  | settle i r =>
    simp only [runTask, settleFailure]
    split
    · rfl
    · dsimp only
      exact raise_isPending_other hk _
  | goOn i =>
    simp only [runTask, goOnSlot]
    split
    · rfl
    · exact endPass_isPending hk i s

theorem runTasks_isPending {k : NoticeKind} (hk : k ≠ .program) (n : Nat) (tasks : List DutyTask) (s : State) :
    (runTasks n tasks s).isPending k = s.isPending k := by
  induction n generalizing tasks s with
  | zero => rfl
  | succ n ih =>
    cases tasks with
    | nil => rfl
    | cons task tasks => exact (ih _ _).trans (runTask_isPending hk task s)

theorem failStepsOn_isPending {k : NoticeKind} (hk : k ≠ .program) (c : Channel) (why : FailReason) (s : State) :
    (failStepsOn c why s).isPending k = s.isPending k :=
  runTasks_isPending hk _ _ s

/-- A BOTH_LIMITS report raises TRAVEL, and the steps it fails PROGRAM. -/
theorem faultReport_bothLimits_isPending {k : NoticeKind} (hp : k ≠ .program) (ht : k ≠ .travel) (arb : State → State)
    (c : Channel) (s : State) : (faultReport arb c .bothLimits s).isPending k = s.isPending k := by
  cases ho : s.outlet c with
  | none => simp [faultReport, ho]
  | some o =>
    by_cases hs : o.state = .held ∨ o.state = .faulted
    · rw [faultReport_silent arb _ ho hs]
    · rw [faultReport_bothLimits_reported arb ho hs, failStepsOn_isPending hp, raise_isPending_other ht]
      rfl

/-! ### The invariant -/

/-- The state `s` within an event of targets and slot grants that has come from `b`: PROFILE is pending as it was, and a channel
without a homing request still has none. -/
structure State.calmFrom (b s : State) : Prop where
  profile : s.isPending .profile = b.isPending .profile
  homeReq : ∀ c, (b.position c).homeReq = false → (s.position c).homeReq = false

namespace State.calmFrom

variable {b s : State}

theorem refl (b : State) : State.calmFrom b b :=
  ⟨rfl, fun _ h => h⟩

theorem modifyPosition (h : State.calmFrom b s) (c : Channel) (f : Position → Position)
    (hf : (s.position c).homeReq = false → (f (s.position c)).homeReq = false) :
    State.calmFrom b (s.modifyPosition c f) where
  profile := h.profile
  homeReq d hd := by
    rw [State.position_modifyPosition]
    split
    · next e => exact hf (h.homeReq c (e ▸ hd))
    · exact h.homeReq d hd

theorem withQueue (h : State.calmFrom b s) (u v : List Channel) : State.calmFrom b (s.withQueue u v) :=
  ⟨h.profile, h.homeReq⟩

theorem addEntry (h : State.calmFrom b s) (d : MoveDir) (c : Channel) : State.calmFrom b (Machine.addEntry d c s) := by
  cases d
  · exact h.withQueue (s.drive.closing ++ [c]) s.drive.opening
  · exact h.withQueue s.drive.closing (s.drive.opening ++ [c])

theorem removeEntry (h : State.calmFrom b s) (c : Channel) : State.calmFrom b (Machine.removeEntry c s) :=
  h.withQueue _ _

theorem homingDone (h : State.calmFrom b s) (c : Channel) : State.calmFrom b (Machine.homingDone c s) :=
  ⟨h.profile, h.homeReq⟩

theorem faultReport (h : State.calmFrom b s) (arb : State → State) (c : Channel) :
    State.calmFrom b (Machine.faultReport arb c .bothLimits s) where
  profile := (faultReport_bothLimits_isPending (by decide) (by decide) arb c s).trans h.profile
  homeReq d hd := by
    have hposition : (Machine.faultReport arb c .bothLimits s).position d = s.position d ∨
        (Machine.faultReport arb c .bothLimits s).position d =
          (s.modifyPosition c fun p => { p with known := false }).position d :=
      (faultReport_bothLimits arb c s).2.imp (fun e => by simp only [State.position, e]) fun e => by
        simp only [State.position, e]
    rcases hposition with e | e
    · rw [e]
      exact h.homeReq d hd
    · rw [e]
      exact (h.modifyPosition c (fun p => { p with known := false }) id).homeReq d hd

/-! ### The operations of the Drive Unit -/

variable {arb : State → State} (ha : ∀ s, State.calmFrom b s → State.calmFrom b (arb s))
include ha

theorem faultStop (h : State.calmFrom b s) (c : Channel) :
    State.calmFrom b (Machine.faultStop arb true c .bothLimits s) :=
  (ha _ ((h.modifyPosition c (faultPosition (s.olimActive c) (s.climActive c)) fun _ => rfl).removeEntry c)).faultReport arb c

theorem joinQueue (h : State.calmFrom b s) (d : MoveDir) (c : Channel) : State.calmFrom b (Machine.joinQueue arb d c s) := by
  unfold Machine.joinQueue
  split
  · exact h
  · exact ha _ (h.addEntry d c)

theorem applyNeed (h : State.calmFrom b s) (c : Channel) : State.calmFrom b (Machine.applyNeed arb c s) := by
  unfold Machine.applyNeed
  split
  · exact h
  · exact joinQueue ha h _ c
  · exact h.removeEntry c
  · split
    · exact h
    · exact joinQueue ha (h.removeEntry c) _ c

theorem reverseMove (h : State.calmFrom b s) (d : MoveDir) (c : Channel) :
    State.calmFrom b (Machine.reverseMove arb d c s) :=
  joinQueue ha ((ha _ (h.modifyPosition c (fun p => { p with move := none }) id)).modifyPosition c
    (fun p => { p with pause := some Config.pauseMs }) id) d c

omit ha in
theorem renewMove (h : State.calmFrom b s) (c : Channel) : State.calmFrom b (Machine.renewMove c s) := by
  refine h.modifyPosition c _ fun hp => ?_
  split
  · exact hp
  · exact hp

omit ha in
theorem completedPosition_homeReq (m : Move) (est : Nat) (known : Bool) {p : Position} (hp : p.homeReq = false) :
    (completedPosition m est known p).homeReq = false := by
  unfold completedPosition
  simp only
  split
  · rfl
  · exact hp

theorem completeMove (h : State.calmFrom b s) (m : Move) (est : Nat) (known : Bool) (c : Channel) :
    State.calmFrom b (Machine.completeMove arb m est known c s) := by
  have h₁ := ha _ (h.modifyPosition c (completedPosition m est known) (completedPosition_homeReq m est known))
  have h₂ : State.calmFrom b (if m.kind = .homing then
      Machine.homingDone c (arb (s.modifyPosition c (completedPosition m est known)))
      else arb (s.modifyPosition c (completedPosition m est known))) := by
    split
    · exact h₁.homingDone c
    · exact h₁
  unfold Machine.completeMove
  simp only
  split
  · exact h₂
  · split
    · exact joinQueue ha h₂ _ c
    · exact joinQueue ha (h₂.modifyPosition c _ id) _ c

theorem startMove (h : State.calmFrom b s) (d : MoveDir) (c : Channel) : State.calmFrom b (Machine.startMove arb d c s) := by
  unfold Machine.startMove
  simp only
  split
  · exact faultStop ha h c
  · split
    · exact completeMove ha h _ _ _ c
    · exact h.modifyPosition c _ id

omit ha in
theorem arbiter (n : Nat) (s : State) (h : State.calmFrom b s) : State.calmFrom b (Machine.arbiter n s) := by
  induction n generalizing s with
  | zero => exact h
  | succ n ih =>
    unfold Machine.arbiter
    split
    · split
      · exact h
      · exact ih _ (startMove ih (h.removeEntry _) _ _)
    · exact h

omit ha in
theorem runArbiter (s : State) (h : State.calmFrom b s) : State.calmFrom b (Machine.runArbiter s) :=
  arbiter _ s h

omit ha in
theorem retarget (h : State.calmFrom b s) (m : Move) (c : Channel) : State.calmFrom b (Machine.retarget m c s) := by
  have h₁ := h.modifyPosition c estimateLeg fun hp => by
    unfold estimateLeg
    split
    · exact hp
    · exact hp
  unfold Machine.retarget
  simp only
  split
  · exact runArbiter _ (h₁.modifyPosition c _ id)
  · split
    · exact h₁.renewMove c
    · exact reverseMove runArbiter h₁ _ c

omit ha in
theorem giveTarget (h : State.calmFrom b s) (c : Channel) (t : Nat) : State.calmFrom b (Machine.giveTarget c t s) := by
  have h₁ := h.modifyPosition c (fun p => { p with target := some t }) id
  unfold Machine.giveTarget
  simp only
  split
  · split
    · exact h₁
    · exact retarget h₁ _ c
  · split
    · exact h₁
    · exact applyNeed runArbiter h₁ c

end State.calmFrom

end Sys2Proof.Machine
end

section
/-! A round, whole (R47 to R50, R59 to R66): what it writes before its grants, its records, the event of its targets, the hand-over of
its results and the feeder demand; and from these the state it leaves. -/

namespace Sys2Proof.Machine

/-! ### Before the grants (R47 to R50) -/

/-- The state behind the capacity stage, from which a round grants. -/
def roundBegun (p : Pool) (s : State) : State :=
  capacityStage p (swapStage p (startRound p s))

/-- The active bank of a pool record behind its swap stage (R49). -/
def PoolRecord.roundBank (r : PoolRecord) : ProfileBank :=
  if r.swapPending then r.activeBank.other else r.activeBank

theorem PoolRecord.eq_roundBank {r : PoolRecord} {bank : ProfileBank} (h : bank = r.activeBank ↔ r.swapPending = false) :
    bank = r.roundBank := by
  unfold PoolRecord.roundBank
  cases hs : r.swapPending <;> cases bank <;> cases hb : r.activeBank <;> simp_all [ProfileBank.other]

theorem PoolRecord.roundBank_iff (r : PoolRecord) : r.roundBank = r.activeBank ↔ r.swapPending = false := by
  unfold PoolRecord.roundBank
  cases r.swapPending <;> cases r.activeBank <;> simp [ProfileBank.other]

/-- The state `u` is `s` but for outlet records, pool records and the link. -/
def State.sameButRound (s u : State) : Prop :=
  u = { s with outlets := u.outlets, pools := u.pools, link := u.link }

theorem State.sameButRound_refl (s : State) : s.sameButRound s := rfl

theorem State.sameButRound.setPool {s u : State} (h : s.sameButRound u) (p : Pool) (r : PoolRecord) :
    s.sameButRound (u.setPool p r) := by
  rcases p with _ | _ | _ <;> exact congrArg (fun v => State.setPool v _ r) h

theorem State.sameButRound.raise {s u : State} (h : s.sameButRound u) (k : NoticeKind) :
    s.sameButRound (Machine.raise k u) := by
  obtain ⟨n, fs, e⟩ := raise_eq k u
  rw [e]
  exact congrArg (fun v : State => { v with link := { v.link with notices := n, tx := v.link.tx ++ fs } }) h

theorem State.sameButRound.modifyOutlet {s u : State} (h : s.sameButRound u) (c : Channel) (f : Outlet → Outlet) :
    s.sameButRound (u.modifyOutlet c f) :=
  congrArg (fun v => State.modifyOutlet v c f) h

section
variable {s u : State} (h : s.sameButRound u)
include h

theorem State.sameButRound.demands : u.demands = s.demands := by unfold State.sameButRound at h; rw [h]
theorem State.sameButRound.curtail : u.curtail = s.curtail := by unfold State.sameButRound at h; rw [h]
theorem State.sameButRound.log : u.log = s.log := by unfold State.sameButRound at h; rw [h]
theorem State.sameButRound.drive : u.drive = s.drive := by unfold State.sameButRound at h; rw [h]
theorem State.sameButRound.duty : u.duty = s.duty := by unfold State.sameButRound at h; rw [h]
theorem State.sameButRound.sensors : u.sensors = s.sensors := by unfold State.sameButRound at h; rw [h]
theorem State.sameButRound.clock : u.clock = s.clock := by unfold State.sameButRound at h; rw [h]

end

theorem roundBegun_frame (p : Pool) (s : State) : s.sameButRound (roundBegun p s) := by
  have hstart : s.sameButRound (startRound p s) := s.sameButRound_refl.setPool p _
  unfold roundBegun capacityStage swapStage
  simp only
  split
  · exact ((hstart.setPool p _).raise .profile).setPool p _
  · exact hstart.setPool p _

theorem swapStage_pool (p q : Pool) (s : State) : (swapStage p s).pool q = if p = q then
    { s.pool p with activeBank := (s.pool p).roundBank, swapPending := false } else s.pool q := by
  unfold swapStage PoolRecord.roundBank
  simp only
  cases hs : (s.pool p).swapPending with
  | true => simp only [if_true, raise_pool, State.pool_setPool]
  | false =>
    simp only [Bool.false_eq_true, if_false]
    split
    · next e =>
      subst e
      rw [← hs]
    · rfl

theorem swapStage_isPending (p : Pool) (s : State) :
    (swapStage p s).isPending .profile = (s.isPending .profile || (s.pool p).swapPending) := by
  unfold swapStage
  simp only
  split
  · next h => simp [raise_isPending, h]
  · next h => simp [h]

theorem swapStage_outlets (p : Pool) (s : State) : (swapStage p s).outlets = s.outlets := by
  unfold swapStage
  simp only
  split <;> simp

/-- What a capacity computation reads (R37). -/
theorem capacity_congr {p : Pool} {s t : State} (ho : t.outlets = s.outlets) (hx : t.sensors = s.sensors)
    (hset : (t.pool p).settings = (s.pool p).settings) (hsteam : t.pools.steamPart = s.pools.steamPart)
    (hhw : ∀ h, t.hwPart h = s.hwPart h) : capacity p t = capacity p s := by
  have hsensor : ∀ i, t.sensor i = s.sensor i := fun i => by rw [State.sensor, State.sensor, hx]
  have houtlet : ∀ c, t.outlet c = s.outlet c := fun c => by rw [State.outlet, State.outlet, ho]
  have hdraws : assumedDraws p t = assumedDraws p s := by simp only [assumedDraws, houtlet]
  cases p with
  | steam =>
    have hk : pressureFactor t = pressureFactor s := by unfold pressureFactor; rw [hsensor, hsteam]
    rw [capacity_steam, capacity_steam, hset, hdraws, hk, hsteam]
  | hw h =>
    have ha : storageAllowance h t = storageAllowance h s := by unfold storageAllowance; rw [hsensor, hhw]
    have hf : feederTerm h t = feederTerm h s := by simp only [feederTerm, houtlet, hhw]
    rw [capacity_hw, capacity_hw, hset, hdraws, ha, hf, hhw]

theorem capacity_swapStage (p : Pool) (s : State) : capacity p (swapStage p (startRound p s)) = capacity p s := by
  have hset : ((swapStage p (startRound p s)).pool p).settings = (s.pool p).settings := by
    rw [swapStage_pool, if_pos rfl]
    simp only [startRound, State.pool_setPool, if_true]
  have hframe : s.sameButRound (swapStage p (startRound p s)) := by
    unfold swapStage
    simp only
    split
    · exact ((s.sameButRound_refl.setPool p _).setPool p _).raise .profile
    · exact s.sameButRound_refl.setPool p _
  refine capacity_congr ?_ hframe.sensors hset ?_ fun h => ?_
  · rw [swapStage_outlets, startRound, State.setPool_outlets]
  · unfold swapStage startRound
    simp only
    split <;> simp
  · unfold swapStage startRound
    simp only
    split <;> simp

/-- The pool record a round grants from: timer, count, swap and figures are written (R47 to R50). -/
def PoolRecord.begun (r : PoolRecord) (figures : Figures) : PoolRecord :=
  { r with roundTimer := some r.settings.periodS, roundCount := (r.roundCount + 1) % 65536, activeBank := r.roundBank,
           swapPending := false, figures }

theorem roundBegun_pool (p q : Pool) (s : State) :
    (roundBegun p s).pool q = if p = q then (s.pool p).begun (capacity p s) else s.pool q := by
  have hstart (q : Pool) : (startRound p s).pool q = if p = q then { s.pool p with
      roundTimer := some (s.pool p).settings.periodS, roundCount := ((s.pool p).roundCount + 1) % 65536 } else s.pool q :=
    State.pool_setPool ..
  rw [roundBegun, capacityStage, State.pool_setPool, capacity_swapStage]
  by_cases e : p = q
  · rw [if_pos e, if_pos e, swapStage_pool, if_pos rfl, hstart, if_pos rfl]
    rfl
  · rw [if_neg e, if_neg e, swapStage_pool, if_neg e, hstart, if_neg e]

theorem roundBegun_outlets (p : Pool) (s : State) : (roundBegun p s).outlets = s.outlets := by
  rw [roundBegun, capacityStage, State.setPool_outlets, swapStage_outlets, startRound, State.setPool_outlets]

theorem roundBegun_outlet (p : Pool) (s : State) (c : Channel) : (roundBegun p s).outlet c = s.outlet c := by
  rw [State.outlet, State.outlet, roundBegun_outlets]

theorem roundBegun_hwPart (p : Pool) (s : State) (h : HwPool) : (roundBegun p s).hwPart h = s.hwPart h := by
  unfold roundBegun capacityStage swapStage startRound
  simp only
  split <;> simp

theorem roundBegun_steamPart (p : Pool) (s : State) : (roundBegun p s).pools.steamPart = s.pools.steamPart := by
  unfold roundBegun capacityStage swapStage startRound
  simp only
  split <;> simp

theorem roundBegun_isPending (p : Pool) (s : State) :
    (roundBegun p s).isPending .profile = (s.isPending .profile || (s.pool p).swapPending) := by
  rw [roundBegun, capacityStage, State.isPending_congr (State.setPool_link ..), swapStage_isPending, startRound,
    State.isPending_congr (State.setPool_link ..), State.pool_setPool, if_pos rfl]

/-! ### The grants (R51 to R59) -/

theorem State.activeProfile_of_banks {s t : State} (h : ∀ q, (t.pool q).activeBank = (s.pool q).activeBank) (o : Outlet) :
    t.activeProfile o = s.activeProfile o := by
  rw [State.activeProfile, State.activeProfile, h]

/-- What the demand stage reads (R51 to R53). -/
theorem participants_congr (p : Pool) {s t : State} (ho : t.outlets = s.outlets) (hdemands : t.demands = s.demands)
    (hduty : t.duty = s.duty) (hbank : ∀ q, (t.pool q).activeBank = (s.pool q).activeBank) :
    participants p t = participants p s := by
  have hpart : ∀ c o, partOf c o t = partOf c o s := fun c o => by
    simp only [partOf, roundClass, rawDemand, State.activeProfile_of_banks hbank, State.claim, State.slot, State.demand,
      hdemands, hduty]
  simp only [participants, State.outlet, ho, hpart]

/-- What a round is to grant: the allocation of its capacity among its participants. -/
def roundParts (p : Pool) (s : State) : List Part :=
  roundGrants p (roundBegun p s)

theorem roundParts_eq (p : Pool) (s : State) :
    roundParts p s = allocate (capacity p s).c (participants p (roundBegun p s)) := by
  rw [roundParts, roundGrants, roundBegun_pool, if_pos rfl]
  rfl

/-- The participants and the profiles of a round are those of the state with the swap applied. -/
theorem roundBegun_banks {p : Pool} {s v : State} (hv : v = s.setPool p { s.pool p with activeBank := (s.pool p).roundBank })
    (q : Pool) : ((roundBegun p s).pool q).activeBank = (v.pool q).activeBank := by
  rw [hv, roundBegun_pool, State.pool_setPool]
  split <;> rfl

theorem participants_fu_le (p : Pool) (s : State) : ∀ q ∈ participants p s, q.fu ≤ q.e := by
  intro q hq
  obtain ⟨o, -, -, -, e⟩ := mem_participants.1 hq
  rw [e]
  exact Nat.min_le_right ..

theorem participants_length_le (p : Pool) (s : State) : (participants p s).length ≤ 48 := by
  refine (List.length_filterMap_le ..).trans ?_
  rw [indices_eq_finRange, List.length_finRange]

end Sys2Proof.Machine
end

section
/-! The records, targets, results and feeder demand of a round (R59 to R66), each from the state the stage before it leaves. -/

namespace Sys2Proof.Machine

/-! ### The records of a round -/

/-- The state in which every record and the totals of a round are written, before its targets are given (log 12). -/
def roundRecords (p : Pool) (s : State) : State :=
  ((roundParts p s).foldl grantOutlet (roundBegun p s)).setPool p
    { ((roundParts p s).foldl grantOutlet (roundBegun p s)).pool p with totals := roundTotals (roundParts p s) }

theorem runRound_eq (p : Pool) (s : State) : runRound p s = feederStage p (roundParts p s) ((roundBegun p s).pool p).figures.a
    (handOver p (roundParts p s) ((roundParts p s).foldl targetOutlet (roundRecords p s))) := rfl

theorem roundRecords_frame (p : Pool) (s : State) : s.sameButRound (roundRecords p s) :=
  (List.foldlRecOn (motive := s.sameButRound) (roundParts p s) grantOutlet (roundBegun_frame p s)
    fun _ hu _ _ => hu.modifyOutlet _ _).setPool p _

theorem foldl_grantOutlet_link (ps : List Part) (s : State) : (ps.foldl grantOutlet s).link = s.link :=
  List.foldlRecOn (motive := fun u : State => u.link = s.link) ps _ rfl fun _ hu _ _ => hu

theorem roundRecords_isPending (p : Pool) (s : State) :
    (roundRecords p s).isPending .profile = (s.isPending .profile || (s.pool p).swapPending) := by
  rw [roundRecords, State.isPending_congr (State.setPool_link ..), State.isPending_congr (foldl_grantOutlet_link ..),
    roundBegun_isPending]

theorem roundRecords_pool (p q : Pool) (s : State) : (roundRecords p s).pool q =
    if p = q then { (s.pool p).begun (capacity p s) with totals := roundTotals (roundParts p s) } else s.pool q := by
  have hpool := State.pool_congr (foldl_grantOutlet_pools (roundParts p s) (roundBegun p s))
  rw [roundRecords, State.pool_setPool, hpool, hpool, roundBegun_pool, roundBegun_pool, if_pos rfl]
  split <;> rfl

theorem roundRecords_hwPart (p : Pool) (s : State) (h : HwPool) : (roundRecords p s).hwPart h = s.hwPart h := by
  rw [roundRecords, State.setPool_hwPart, State.hwPart_congr (foldl_grantOutlet_pools ..), roundBegun_hwPart]

theorem roundRecords_steamPart (p : Pool) (s : State) : (roundRecords p s).pools.steamPart = s.pools.steamPart := by
  rw [roundRecords, State.steamPart_setPool, foldl_grantOutlet_pools, roundBegun_steamPart]

theorem roundParts_channels (p : Pool) (s : State) :
    (roundParts p s).map Part.ch = (participants p (roundBegun p s)).map Part.ch := by
  rw [roundParts_eq, allocate_channels]

theorem roundParts_nodup (p : Pool) (s : State) : ((roundParts p s).map Part.ch).Nodup := by
  rw [roundParts_channels]
  exact channels_nodup_of_ascending (participants_ascending p _)

theorem roundRecords_other {p : Pool} {s : State} {c : Channel} (h : ∀ q ∈ roundParts p s, q.ch ≠ c) :
    (roundRecords p s).outlet c = s.outlet c := by
  rw [roundRecords, State.setPool_outlet, foldl_grantOutlet_other _ h, roundBegun_outlet]

theorem roundRecords_participant {p : Pool} {s : State} {q : Part} (h : q ∈ roundParts p s) :
    (roundRecords p s).outlet q.ch = (s.outlet q.ch).map (grantedRecord (roundBegun p s) q) := by
  rw [roundRecords, State.setPool_outlet, foldl_grantOutlet_participant _ (roundParts_nodup p s) h, roundBegun_outlet]

/-- A grant leaves the settings of a record, its bars and its feeder fields. -/
theorem grantedRecord_kept (s : State) (q : Part) (o : Outlet) : (grantedRecord s q o).fixed = o.fixed ∧
    (grantedRecord s q o).setA = o.setA ∧ (grantedRecord s q o).setB = o.setB ∧ (grantedRecord s q o).bars = o.bars ∧
    (grantedRecord s q o).feederOf = o.feederOf ∧ (grantedRecord s q o).feederDemand = o.feederDemand := by
  unfold grantedRecord afterGrant
  split
  · exact ⟨rfl, rfl, rfl, rfl, rfl, rfl⟩
  · split
    · split <;> exact ⟨rfl, rfl, rfl, rfl, rfl, rfl⟩
    · split <;> exact ⟨rfl, rfl, rfl, rfl, rfl, rfl⟩
    all_goals exact ⟨rfl, rfl, rfl, rfl, rfl, rfl⟩

/-- A present outlet's record behind the grants: its own, or that of a participant granted. -/
theorem roundRecords_present {p : Pool} {s : State} {c : Channel} {o : Outlet} (ho : s.outlet c = some o) :
    ∃ r : Outlet, (roundRecords p s).outlet c = some r ∧ r.fixed = o.fixed ∧ r.setA = o.setA ∧ r.setB = o.setB ∧
      r.bars = o.bars ∧ r.feederOf = o.feederOf ∧ r.feederDemand = o.feederDemand ∧
      ((∀ q ∈ roundParts p s, q.ch ≠ c) → r = o) := by
  by_cases h : ∀ q ∈ roundParts p s, q.ch ≠ c
  · exact ⟨o, (roundRecords_other h).trans ho, rfl, rfl, rfl, rfl, rfl, rfl, fun _ => rfl⟩
  · obtain ⟨q, hq, hc⟩ : ∃ q ∈ roundParts p s, q.ch = c := by simpa using h
    subst hc
    obtain ⟨h₁, h₂, h₃, h₄, h₅, h₆⟩ := grantedRecord_kept (roundBegun p s) q o
    exact ⟨_, by rw [roundRecords_participant hq, ho]; rfl, h₁, h₂, h₃, h₄, h₅, h₆, fun hno => absurd rfl (hno q hq)⟩

theorem roundRecords_absent {p : Pool} {s : State} {c : Channel} (ho : s.outlet c = none) :
    (roundRecords p s).outlet c = none := by
  by_cases h : ∀ q ∈ roundParts p s, q.ch ≠ c
  · rw [roundRecords_other h, ho]
  · obtain ⟨q, hq, hc⟩ : ∃ q ∈ roundParts p s, q.ch = c := by simpa using h
    rw [← hc, roundRecords_participant hq, hc, ho]
    rfl

/-- A participant's outlet is eligible, and stays so with its grant. -/
theorem grantedRecord_eligible {p : Pool} {s : State} {q : Part} (h : q ∈ roundParts p s) {o : Outlet}
    (ho : s.outlet q.ch = some o) : (grantedRecord (roundBegun p s) q o).state.eligible = true := by
  obtain ⟨o', ho', -, he⟩ := roundGrants_eligible h
  obtain rfl : o = o' := by simpa [roundBegun_outlet, ho] using ho'
  obtain ⟨-, -, helig⟩ := afterGrant_frame q.g ((roundBegun p s).activeProfile o).warmKw o
  exact helig he

/-! ### The targets of a round -/

theorem targetOutlet_present {s : State} {q : Part} {o : Outlet} (ho : s.outlet q.ch = some o) : targetOutlet s q =
    if o.state.eligible = true then giveTarget q.ch (targetOf q.g o.fixed.ratedKw) s else s := by
  simp only [targetOutlet, ho]

namespace State.grantsFrom

variable {b s : State} {A T : Set Channel} {x : Channel → Nat}

/-- A target given, from the record with the target written on. -/
theorem targetGiven {c : Channel} (hc : c ∈ A) (t : Nat)
    (h₁ : State.grantsFrom b A T x (s.modifyPosition c fun p => { p with target := some t })) :
    State.grantsFrom b A T x (Machine.giveTarget c t s) := by
  unfold Machine.giveTarget
  simp only
  split
  · split
    · exact h₁
    · exact retarget h₁ _ hc
  · split
    · exact h₁
    · exact applyNeed runArbiter h₁ hc

/-- A target to a channel whose own target is not followed. -/
theorem giveTarget_other (h : State.grantsFrom b A T x s) {c : Channel} (hc : c ∈ A) (hT : c ∉ T) (t : Nat) :
    State.grantsFrom b A T x (Machine.giveTarget c t s) := by
  have h₁ := h.setPosition c { s.position c with target := some t }
  rw [Set.sdiff_singleton_eq_self hT] at h₁
  exact targetGiven hc t h₁

theorem targetOutlet_other (h : State.grantsFrom b A T x s) {q : Part} (hc : q.ch ∈ A) (hT : q.ch ∉ T) :
    State.grantsFrom b A T x (Machine.targetOutlet s q) := by
  unfold Machine.targetOutlet
  split
  · split
    · exact h.giveTarget_other hc hT _
    · exact h
  · exact h

theorem foldl_targetOutlet_other {ps : List Part} (h : State.grantsFrom b A T x s) (hps : ∀ q ∈ ps, q.ch ∈ A ∧ q.ch ∉ T) :
    State.grantsFrom b A T x (ps.foldl Machine.targetOutlet s) :=
  List.foldlRecOn (motive := State.grantsFrom b A T x) ps _ h fun _ hu q hq => hu.targetOutlet_other (hps q hq).1 (hps q hq).2

end State.grantsFrom

theorem State.calmFrom.foldl_targetOutlet {b s : State} (h : b.calmFrom s) (ps : List Part) :
    b.calmFrom (ps.foldl targetOutlet s) :=
  List.foldlRecOn (motive := b.calmFrom) ps _ h fun u hu q _ => by
    unfold targetOutlet
    split
    · split
      · exact hu.giveTarget _ _
      · exact hu
    · exact hu

theorem foldl_targetOutlet_grantsFrom (b : State) (ps : List Part) :
    b.grantsFrom Set.univ ∅ (fun _ => 0) (ps.foldl targetOutlet b) :=
  (State.grantsFrom.refl b _ fun _ _ => Set.mem_univ _).foldl_targetOutlet_other fun _ _ => ⟨Set.mem_univ _, id⟩

/-- The target of a participant's grant stays with its channel while the outlet is eligible, where no homing was asked for. -/
theorem foldl_targetOutlet_target {b : State} {ps : List Part} (hn : (ps.map Part.ch).Nodup) {q : Part} (hq : q ∈ ps) {r : Outlet}
    (hr : b.outlet q.ch = some r) (he : r.state.eligible = true) (hreq : (b.position q.ch).homeReq = false)
    (hend : (ps.foldl targetOutlet b).isEligible q.ch = true) :
    ((ps.foldl targetOutlet b).position q.ch).target = some (targetOf q.g r.fixed.ratedKw) := by
  obtain ⟨l₁, l₂, rfl⟩ := List.append_of_mem hq
  have hlater : ∀ q' ∈ l₂, q'.ch ∉ insert q.ch (∅ : Set Channel) := by
    rw [List.map_append, List.map_cons, List.nodup_append] at hn
    obtain ⟨-, hn, -⟩ := hn
    rintro q' hq' (e | e)
    · exact (List.nodup_cons.1 hn).1 (List.mem_map.2 ⟨q', hq', e⟩)
    · exact e
  have hbefore : b.grantsFrom Set.univ ∅ (fun _ => targetOf q.g r.fixed.ratedKw) (l₁.foldl targetOutlet b) :=
    (State.grantsFrom.refl b _ fun _ _ => Set.mem_univ _).foldl_targetOutlet_other fun _ _ => ⟨Set.mem_univ _, id⟩
  have hcalm := ((State.calmFrom.refl b).foldl_targetOutlet l₁).homeReq q.ch hreq
  have hb : b.isEligible q.ch = true := by rw [isEligible_present hr, he]
  have hgiven : b.grantsFrom Set.univ (insert q.ch ∅) (fun _ => targetOf q.g r.fixed.ratedKw)
      (targetOutlet (l₁.foldl targetOutlet b) q) := by
    obtain ⟨u, hu, hkept, -⟩ := hbefore.present hr
    rw [targetOutlet_present hu, hkept.fixed]
    split
    · exact hbefore.giveTarget (Set.mem_univ _) hb (.inr hcalm)
    · next h => exact hbefore.insert_ineligible hb (by rw [isEligible_present hu]; simpa using h)
  rw [List.foldl_append, List.foldl_cons] at hend ⊢
  exact ((hgiven.foldl_targetOutlet_other fun q' hq' => ⟨Set.mem_univ _, hlater q' hq'⟩).target q.ch (.inl rfl) hend).1

/-- What the targets leave alone, whatever their size. -/
theorem foldl_targetOutlet_frame (b : State) (ps : List Part) : driveFrame b (ps.foldl targetOutlet b) :=
  List.foldlRecOn (motive := driveFrame b) ps _ (driveFrame_refl b) fun u hu q _ => by
    unfold targetOutlet
    split
    · split
      · exact (keptByDrive_frame b).giveTarget_any (fun _ _ _ h => h) _ _ hu
      · exact hu
    · exact hu

/-! ### The hand-over (R65, R86 to R91) -/

/-- The blocks that the monitor leaves alone. -/
structure State.besidesMonitor (s u : State) : Prop where
  outlets : u.outlets = s.outlets
  pools : u.pools = s.pools
  demands : u.demands = s.demands
  drive : u.drive = s.drive
  sensors : u.sensors = s.sensors
  clock : u.clock = s.clock

theorem State.besidesMonitor.setCurtailment {s u : State} (h : s.besidesMonitor u) (c : Channel) (x : Curtailment) :
    s.besidesMonitor (u.setCurtailment c x) :=
  ⟨h.outlets, h.pools, h.demands, h.drive, h.sensors, h.clock⟩

theorem State.besidesMonitor.writeLog {s u : State} (h : s.besidesMonitor u) (x : LogEntry) :
    s.besidesMonitor (Machine.writeLog x u) := by
  rw [writeLog_eq]
  exact ⟨h.outlets, h.pools, h.demands, h.drive, h.sensors, h.clock⟩

theorem State.besidesMonitor.takeResult {s u : State} (h : s.besidesMonitor u) (r : RoundResult) :
    s.besidesMonitor (Machine.takeResult r u) := by
  unfold Machine.takeResult
  simp only
  generalize counterStep (reloadValue r.channel u) (u.curtailment r.channel).counter r.e r.grant = n
  generalize floorCutStep (u.curtailment r.channel).floorCut r.fu r.grant = f
  obtain ⟨n, k⟩ := n
  obtain ⟨flag, cut⟩ := f
  have hset := h.setCurtailment r.channel { u.curtailment r.channel with counter := n }
  cases k with
  | none =>
    have hflag := hset.setCurtailment r.channel { counter := n, floorCut := flag }
    cases cut with
    | false => exact hflag
    | true => exact hflag.writeLog _
  | some k =>
    have hflag (x : LogEntry) := (hset.writeLog x).setCurtailment r.channel { counter := n, floorCut := flag }
    cases cut with
    | false => exact hflag _
    | true => exact (hflag _).writeLog _

theorem writeLog_isPending {k : NoticeKind} (hl : k ≠ .logLoss) (hc : k ≠ .curtail) (x : LogEntry) (s : State) :
    (writeLog x s).isPending k = s.isPending k := by
  unfold writeLog
  rw [raise_isPending_other hc]
  split
  · exact raise_isPending_other hl _
  · rfl

theorem takeResult_isPending {k : NoticeKind} (hl : k ≠ .logLoss) (hc : k ≠ .curtail) (r : RoundResult) (s : State) :
    (takeResult r s).isPending k = s.isPending k := by
  have write := writeLog_isPending hl hc
  unfold takeResult
  simp only
  split
  · split
    · exact (write _ _).trans (write _ _)
    · exact write _ _
  · split
    · exact write _ _
    · rfl

/-- TOLERANCE of an outlet's active set, none where the record is absent (R85). -/
def State.tolerance (s : State) (c : Channel) : Option Nat :=
  (s.outlet c).map fun o => (s.activeProfile o).tolerance

theorem reloadValue_eq (c : Channel) (s : State) : reloadValue c s = (s.tolerance c).getD (s.curtailment c).counter := by
  unfold reloadValue State.tolerance
  cases s.outlet c <;> rfl

/-- Two states in which the monitor does the same: its own state, the clock and the tolerances agree. -/
structure State.monitoredAlike (s t : State) : Prop where
  curtail : t.curtail = s.curtail
  log : t.log = s.log
  clock : t.clock = s.clock
  tolerance : ∀ c, t.tolerance c = s.tolerance c

namespace State.monitoredAlike

variable {s t : State}

theorem setCurtailment (h : State.monitoredAlike s t) (c : Channel) (x : Curtailment) :
    State.monitoredAlike (s.setCurtailment c x) (t.setCurtailment c x) where
  curtail := by rw [State.setCurtailment, State.setCurtailment, h.curtail]
  log := h.log
  clock := h.clock
  tolerance := h.tolerance

theorem writeLog (h : State.monitoredAlike s t) (x : LogEntry) :
    State.monitoredAlike (Machine.writeLog x s) (Machine.writeLog x t) := by
  rw [writeLog_eq, writeLog_eq]
  exact ⟨h.curtail, by simp only [h.log], h.clock, h.tolerance⟩

theorem logEntry (h : State.monitoredAlike s t) (k : LogKind) (r : RoundResult) :
    Machine.logEntry k r t = Machine.logEntry k r s := by
  rw [Machine.logEntry, Machine.logEntry, h.clock]

theorem writeEntry (h : State.monitoredAlike s t) (k : LogKind) (r : RoundResult) :
    State.monitoredAlike (Machine.writeLog (Machine.logEntry k r s) s) (Machine.writeLog (Machine.logEntry k r t) t) := by
  rw [h.logEntry]
  exact h.writeLog _

theorem takeResult (h : State.monitoredAlike s t) (r : RoundResult) :
    State.monitoredAlike (Machine.takeResult r s) (Machine.takeResult r t) := by
  have hcur : t.curtailment r.channel = s.curtailment r.channel := by
    rw [State.curtailment, State.curtailment, h.curtail]
  have hreload : reloadValue r.channel t = reloadValue r.channel s := by
    rw [reloadValue_eq, reloadValue_eq, h.tolerance, hcur]
  unfold Machine.takeResult
  simp only
  rw [hcur, hreload]
  generalize counterStep (reloadValue r.channel s) (s.curtailment r.channel).counter r.e r.grant = n
  generalize floorCutStep (s.curtailment r.channel).floorCut r.fu r.grant = f
  obtain ⟨n, k⟩ := n
  obtain ⟨flag, cut⟩ := f
  have hset := h.setCurtailment r.channel { s.curtailment r.channel with counter := n }
  cases k with
  | none =>
    have hflag := hset.setCurtailment r.channel { counter := n, floorCut := flag }
    cases cut with
    | false => exact hflag
    | true => exact hflag.writeEntry _ _
  | some k =>
    have hflag := (hset.writeEntry k r).setCurtailment r.channel { counter := n, floorCut := flag }
    cases cut with
    | false => exact hflag
    | true => exact hflag.writeEntry _ _

theorem handOver (h : State.monitoredAlike s t) (p : Pool) (ps : List Part) :
    State.monitoredAlike (Machine.handOver p ps s) (Machine.handOver p ps t) := by
  induction ps generalizing s t with
  | nil => exact h
  | cons q ps ih => exact ih (h.takeResult _)

end State.monitoredAlike

theorem handOver_frame (p : Pool) (ps : List Part) (s : State) : s.besidesMonitor (handOver p ps s) :=
  List.foldlRecOn (motive := s.besidesMonitor) ps _ ⟨rfl, rfl, rfl, rfl, rfl, rfl⟩ fun _ hu _ _ => hu.takeResult _

theorem handOver_isPending {k : NoticeKind} (hl : k ≠ .logLoss) (hc : k ≠ .curtail) (p : Pool) (ps : List Part) (s : State) :
    (handOver p ps s).isPending k = s.isPending k :=
  List.foldlRecOn (motive := fun u : State => u.isPending k = s.isPending k) ps _ rfl fun _ hu _ _ =>
    (takeResult_isPending hl hc _ _).trans hu

/-! ### The feeder demand stage (R66) -/

/-- The feeder demand stage writes one field of one outlet. -/
theorem feederStage_frame (p : Pool) (ps : List Part) (a : Nat) (s : State) :
    feederStage p ps a s = { s with outlets := (feederStage p ps a s).outlets } := by
  unfold feederStage
  split
  · rfl
  · split <;> rfl

theorem feederStage_absent {p : Pool} {s : State} {c : Channel} (ps : List Part) (a : Nat) (ho : s.outlet c = none) :
    (feederStage p ps a s).outlet c = none := by
  unfold feederStage
  split
  · exact ho
  · split
    · exact ho
    · rw [State.outlet_modifyOutlet]
      split
      · next e => rw [e, ho]; rfl
      · exact ho

theorem feederStage_present {p : Pool} {s : State} {c : Channel} {o : Outlet} (ps : List Part) (a : Nat)
    (ho : s.outlet c = some o) : ∃ d : Nat, (feederStage p ps a s).outlet c = some { o with feederDemand := d } ∧
      ((∀ h : HwPool, p = .hw h → (s.hwPart h).feeder ≠ some c) → d = o.feederDemand) ∧
      ∀ h : HwPool, p = .hw h → (s.hwPart h).feeder = some c →
        d = feederDemandOf (total (fun q => q.e) ps) a (s.hwPart h).coilYieldPct o.fixed.ratedKw := by
  cases p with
  | steam => exact ⟨o.feederDemand, ho, fun _ => rfl, fun h e => by cases e⟩
  | hw h =>
    cases hf : (s.hwPart h).feeder with
    | none =>
      rw [feederStage_none ps a hf]
      refine ⟨o.feederDemand, ho, fun _ => rfl, ?_⟩
      rintro h' ⟨⟩ e
      rw [hf] at e
      cases e
    | some d =>
      rw [feederStage_feeder ps a hf, State.outlet_modifyOutlet]
      by_cases e : d = c
      · subst e
        rw [if_pos rfl, ho]
        refine ⟨_, rfl, fun hno => absurd hf (hno h rfl), ?_⟩
        rintro h' ⟨⟩ -
        rfl
      · rw [if_neg e]
        refine ⟨o.feederDemand, ho, fun _ => rfl, ?_⟩
        rintro h' ⟨⟩ e'
        rw [hf] at e'
        exact absurd (Option.some.inj e') e

end Sys2Proof.Machine
end

section
/-! The state a round leaves, block by block, and the statement about it (R47 to R50, R59 to R66). -/

namespace Sys2Proof.Machine

/-! ### The blocks -/

/-- The state in which the targets of a round are given and its results are not yet handed over. -/
def roundTargets (p : Pool) (s : State) : State :=
  (roundParts p s).foldl targetOutlet (roundRecords p s)

theorem runRound_stages (p : Pool) (s : State) : runRound p s =
    feederStage p (roundParts p s) (capacity p s).a (handOver p (roundParts p s) (roundTargets p s)) := by
  rw [runRound_eq, roundBegun_pool, if_pos rfl]
  rfl

theorem roundTargets_pools (p : Pool) (s : State) : (roundTargets p s).pools = (roundRecords p s).pools := by
  obtain ⟨-, -, hpools, -⟩ := foldl_targetOutlet_frame (roundRecords p s) (roundParts p s)
  exact hpools

/-- What the hand-over and the feeder demand stage leave as the targets left it, and what the hand-over alone writes. -/
theorem runRound_frame (p : Pool) (s : State) : (runRound p s).pools = (roundTargets p s).pools ∧
    (runRound p s).demands = (roundTargets p s).demands ∧ (runRound p s).drive = (roundTargets p s).drive ∧
    (runRound p s).sensors = (roundTargets p s).sensors ∧ (runRound p s).clock = (roundTargets p s).clock ∧
    (runRound p s).link = (handOver p (roundParts p s) (roundTargets p s)).link ∧
    (runRound p s).curtail = (handOver p (roundParts p s) (roundTargets p s)).curtail ∧
    (runRound p s).log = (handOver p (roundParts p s) (roundTargets p s)).log := by
  have h := handOver_frame p (roundParts p s) (roundTargets p s)
  rw [runRound_stages, feederStage_frame]
  generalize handOver p (roundParts p s) (roundTargets p s) = u at h ⊢
  exact ⟨h.pools, h.demands, h.drive, h.sensors, h.clock, rfl, rfl, rfl⟩

theorem runRound_pools (p : Pool) (s : State) : (runRound p s).pools = (roundRecords p s).pools := by
  obtain ⟨hpools, -⟩ := runRound_frame p s
  rw [hpools, roundTargets_pools]

theorem runRound_pool (p q : Pool) (s : State) : (runRound p s).pool q =
    if p = q then { (s.pool p).begun (capacity p s) with totals := roundTotals (roundParts p s) } else s.pool q := by
  rw [State.pool_congr (runRound_pools p s), roundRecords_pool]

theorem runRound_blocks (p : Pool) (s : State) : (runRound p s).demands = s.demands ∧ (runRound p s).clock = s.clock ∧
    (runRound p s).sensors = s.sensors := by
  obtain ⟨-, hdemands, -, hsensors, hclock, -⟩ := runRound_frame p s
  obtain ⟨-, -, -, hdemands', -, -, -, hsensors', hclock', -⟩ := foldl_targetOutlet_frame (roundRecords p s) (roundParts p s)
  have hrecords := roundRecords_frame p s
  rw [hdemands, hsensors, hclock, roundTargets, hdemands', hsensors', hclock']
  exact ⟨hrecords.demands, hrecords.clock, hrecords.sensors⟩

theorem runRound_isPending (p : Pool) (s : State) :
    (runRound p s).isPending .profile = (s.isPending .profile || (s.pool p).swapPending) := by
  obtain ⟨-, -, -, -, -, hlink, -⟩ := runRound_frame p s
  have hcalm := (State.calmFrom.refl (roundRecords p s)).foldl_targetOutlet (roundParts p s)
  rw [State.isPending_congr hlink, handOver_isPending (by decide) (by decide), ← roundRecords_isPending]
  exact hcalm.profile

theorem runRound_position (p : Pool) (s : State) (c : Channel) :
    (runRound p s).position c = (roundTargets p s).position c := by
  obtain ⟨-, -, hdrive, -⟩ := runRound_frame p s
  rw [State.position, State.position, hdrive]

/-! ### The outlets -/

theorem roundRecords_drive (p : Pool) (s : State) : (roundRecords p s).drive = s.drive :=
  (roundRecords_frame p s).drive

/-- An outlet behind the targets: its record as the round wrote it, but for the effect of a grant. -/
theorem roundTargets_present {p : Pool} {s : State} {c : Channel} {r : Outlet} (hr : (roundRecords p s).outlet c = some r) :
    ∃ w : Outlet, (roundTargets p s).outlet c = some w ∧ r.keptByGrant w ∧
      (w = r ∨ s.climActive c = true ∧ w = grantEffect (s.olimActive c) r) := by
  have hevent := foldl_targetOutlet_grantsFrom (roundRecords p s) (roundParts p s)
  obtain ⟨w, hw, hkept, -⟩ := hevent.present hr
  refine ⟨w, hw, hkept, ?_⟩
  have hclim : (roundRecords p s).climActive c = s.climActive c := by rw [State.climActive, State.climActive, roundRecords_drive]
  have holim : (roundRecords p s).olimActive c = s.olimActive c := by rw [State.olimActive, State.olimActive, roundRecords_drive]
  rcases hevent.outlet c with e | ⟨-, h, e⟩
  · exact .inl (Option.some.inj (hw.symm.trans (e.trans hr)))
  · rw [hr, holim] at e
    exact .inr ⟨hclim ▸ h, Option.some.inj (hw.symm.trans e)⟩

/-- An outlet behind the round: as the targets left it, but for the demand of a feeder. -/
theorem runRound_present {p : Pool} {s : State} {c : Channel} {w : Outlet} (hw : (roundTargets p s).outlet c = some w) :
    ∃ d : Nat, (runRound p s).outlet c = some { w with feederDemand := d } ∧
      ((∀ h : HwPool, p = .hw h → (s.hwPart h).feeder ≠ some c) → d = w.feederDemand) ∧
      ∀ h : HwPool, p = .hw h → (s.hwPart h).feeder = some c →
        d = feederDemandOf (total (fun q => q.e) (roundParts p s)) (capacity p s).a (s.hwPart h).coilYieldPct w.fixed.ratedKw := by
  have hmonitor := handOver_frame p (roundParts p s) (roundTargets p s)
  have hhw (h : HwPool) : (handOver p (roundParts p s) (roundTargets p s)).hwPart h = s.hwPart h := by
    rw [State.hwPart_congr (hmonitor.pools.trans (roundTargets_pools p s)), roundRecords_hwPart]
  have h := feederStage_present (p := p) (roundParts p s) (capacity p s).a
    (show (handOver p (roundParts p s) (roundTargets p s)).outlet c = some w by
      rw [State.outlet, hmonitor.outlets]; exact hw)
  simp only [hhw] at h
  rw [runRound_stages]
  exact h

theorem runRound_absent {p : Pool} {s : State} {c : Channel} (ho : s.outlet c = none) : (runRound p s).outlet c = none := by
  have htargets : (roundTargets p s).outlet c = none :=
    (foldl_targetOutlet_grantsFrom (roundRecords p s) (roundParts p s)).absent (roundRecords_absent ho)
  rw [runRound_stages]
  refine feederStage_absent _ _ ?_
  rw [State.outlet, (handOver_frame p _ _).outlets]
  exact htargets

/-- What becomes of any present outlet in a round: its settings, its bars and its feeder fields. -/
theorem runRound_anyOutlet {p : Pool} {s : State} {c : Channel} {o : Outlet} (ho : s.outlet c = some o) :
    ∃ u : Outlet, (runRound p s).outlet c = some u ∧ u.fixed = o.fixed ∧ u.setA = o.setA ∧ u.setB = o.setB ∧ u.bars = o.bars ∧
      u.feederOf = o.feederOf ∧
      ((∀ h : HwPool, p = .hw h → (s.hwPart h).feeder ≠ some c) → u.feederDemand = o.feederDemand) ∧
      (∀ h : HwPool, p = .hw h → (s.hwPart h).feeder = some c → u.feederDemand = feederDemandOf
        (total (fun q => q.e) (roundParts p s)) (capacity p s).a (s.hwPart h).coilYieldPct o.fixed.ratedKw) ∧
      ((∀ q ∈ roundParts p s, q.ch ≠ c) → (s.climActive c = false ∨ s.olimActive c = false) →
        u.grant = o.grant ∧ u.effDemand = o.effDemand) := by
  obtain ⟨r, hr, hfixed, hsetA, hsetB, hbars, hof, hdemand, hother⟩ := roundRecords_present (p := p) ho
  obtain ⟨w, hw, hkept, heffect⟩ := roundTargets_present hr
  obtain ⟨d, hd, hstays, hfed⟩ := runRound_present hw
  have hwf : w.fixed = o.fixed := hkept.fixed.trans hfixed
  refine ⟨_, hd, hwf, hkept.setA.trans hsetA, hkept.setB.trans hsetB, hkept.bars.trans hbars, hkept.feederOf.trans hof,
    fun hno => (hstays hno).trans (hkept.feederDemand.trans hdemand), fun h hp hf => ?_, fun hno hlimits => ?_⟩
  · rw [← hwf]
    exact hfed h hp hf
  · obtain rfl := hother hno
    rcases heffect with rfl | ⟨hclim, rfl⟩
    · exact ⟨rfl, rfl⟩
    · have holim : s.olimActive c = false := hlimits.resolve_left (by simp [hclim])
      rw [holim]
      exact ⟨rfl, rfl⟩

/-- An eligible record after both limits: FAULTED, with its grant as the draw assumed (R22, R121). -/
theorem bothLimitsFault_of_eligible {o : Outlet} (h : o.state.eligible = true) :
    bothLimitsFault o = { leaveEligible .faulted o with lastFault := some .bothLimits } := by
  rcases (OutletState.eligible_iff _).1 h with h | h | h <;> simp [bothLimitsFault, h]

/-- What becomes of a participant: its grant, STATE, warm timer and target, or the fault that both limits make of it. -/
theorem runRound_participant {p : Pool} {s : State} {q : Part} {o : Outlet} (hq : q ∈ roundParts p s)
    (ho : s.outlet q.ch = some o) : ∃ u : Outlet, (runRound p s).outlet q.ch = some u ∧ u.fixed = o.fixed ∧
      ((s.climActive q.ch = false ∨ s.olimActive q.ch = false) → u.state.eligible = true) ∧
      (u.state.eligible = true → u.grant = q.g ∧ u.effDemand = q.e ∧
        u.state = (afterGrant q.g ((roundBegun p s).activeProfile o).warmKw o).state ∧
        u.warmTimer = (afterGrant q.g ((roundBegun p s).activeProfile o).warmKw o).warmTimer ∧
        ((s.position q.ch).homeReq = false →
          ((runRound p s).position q.ch).target = some (targetOf q.g o.fixed.ratedKw))) ∧
      (u.state.eligible = false → u.state = .faulted ∧ u.lastFault = some .bothLimits ∧ u.assumedDraw = q.g ∧ u.grant = 0 ∧
        u.effDemand = 0) := by
  have hr : (roundRecords p s).outlet q.ch = some (grantedRecord (roundBegun p s) q o) := by
    rw [roundRecords_participant hq, ho]
    rfl
  have he := grantedRecord_eligible hq ho
  obtain ⟨hfixed, -⟩ := grantedRecord_kept (roundBegun p s) q o
  obtain ⟨w, hw, hkept, heffect⟩ := roundTargets_present hr
  obtain ⟨d, hd, -⟩ := runRound_present hw
  have htarget : w.state.eligible = true → (s.position q.ch).homeReq = false →
      ((runRound p s).position q.ch).target = some (targetOf q.g o.fixed.ratedKw) := fun hwe hreq => by
    have h := foldl_targetOutlet_target (roundParts_nodup p s) hq hr he
      (by rwa [State.position, roundRecords_drive]) (by rw [← roundTargets, isEligible_present hw, hwe])
    rw [runRound_position, roundTargets, h, hfixed]
  have hcases : (w = grantedRecord (roundBegun p s) q o ∨ w = homedOutlet (grantedRecord (roundBegun p s) q o)) ∨
      s.climActive q.ch = true ∧ s.olimActive q.ch = true ∧ w = bothLimitsFault (grantedRecord (roundBegun p s) q o) := by
    rcases heffect with h | ⟨hclim, h⟩
    · exact .inl (.inl h)
    · cases holim : s.olimActive q.ch with
      | false => exact .inl (.inr (by rw [h, holim]; rfl))
      | true => exact .inr ⟨hclim, rfl, by rw [h, holim]; rfl⟩
  refine ⟨_, hd, hkept.fixed.trans hfixed, ?_⟩
  rcases hcases with h | ⟨hclim, holim, rfl⟩
  · obtain ⟨hstate, hgrant, heff, hwarm⟩ : w.state = (grantedRecord (roundBegun p s) q o).state ∧ w.grant = q.g ∧
        w.effDemand = q.e ∧ w.warmTimer = (grantedRecord (roundBegun p s) q o).warmTimer := by
      rcases h with rfl | rfl
      · exact ⟨rfl, rfl, rfl, rfl⟩
      · exact ⟨homedOutlet_state_of_eligible he, rfl, rfl, rfl⟩
    have hwe : w.state.eligible = true := by rw [hstate, he]
    exact ⟨fun _ => hwe, fun _ => ⟨hgrant, heff, hstate, hwarm, htarget hwe⟩, fun h => by rw [hwe] at h; cases h⟩
  · rw [bothLimitsFault_of_eligible he]
    refine ⟨fun h => ?_, fun h => ?_, fun _ => ⟨rfl, rfl, rfl, rfl, rfl⟩⟩
    · rw [hclim, holim] at h
      simp at h
    · cases h

/-! ### The results (R65) -/

/-- The monitor finds at the hand-over what it would have found behind the swap: the targets change no tolerance. -/
theorem roundTargets_monitoredAlike {p : Pool} {s v : State}
    (hv : v = s.setPool p { s.pool p with activeBank := (s.pool p).roundBank }) : v.monitoredAlike (roundTargets p s) := by
  obtain ⟨-, -, -, -, hcurtail, hlog, -, -, hclock, -⟩ := foldl_targetOutlet_frame (roundRecords p s) (roundParts p s)
  have hrecords := roundRecords_frame p s
  have hbank (q : Pool) : ((roundTargets p s).pool q).activeBank = (v.pool q).activeBank := by
    rw [State.pool_congr (roundTargets_pools p s), roundRecords_pool, ← roundBegun_banks hv, roundBegun_pool]
    split <;> rfl
  have houtlet (c : Channel) : v.outlet c = s.outlet c := by rw [hv, State.setPool_outlet]
  refine ⟨?_, ?_, ?_, fun c => ?_⟩
  · rw [roundTargets, hcurtail, hrecords.curtail, hv, State.setPool_curtail]
  · rw [roundTargets, hlog, hrecords.log, hv, State.setPool_log]
  · rw [roundTargets, hclock, hrecords.clock, hv, State.setPool_clock]
  · rw [State.tolerance, State.tolerance, houtlet]
    cases ho : s.outlet c with
    | none =>
      have htargets : (roundTargets p s).outlet c = none :=
        (foldl_targetOutlet_grantsFrom (roundRecords p s) (roundParts p s)).absent (roundRecords_absent ho)
      rw [htargets, Option.map_none, Option.map_none]
    | some o =>
      obtain ⟨r, hr, hfixed, hsetA, hsetB, -⟩ := roundRecords_present (p := p) ho
      obtain ⟨w, hw, hkept, -⟩ := roundTargets_present hr
      have hprofile : (roundTargets p s).activeProfile w = v.activeProfile o := by
        rw [State.activeProfile_of_banks hbank, State.activeProfile, State.activeProfile, hkept.fixed, hfixed]
        cases (v.pool o.fixed.pool).activeBank with
        | a => exact hkept.setA.trans hsetA
        | b => exact hkept.setB.trans hsetB
      rw [hw, Option.map_some, Option.map_some, hprofile]

/-! ### The statement -/

/-- The participants of a round are those of the state with the swap applied. -/
theorem participants_roundBegun {p : Pool} {s v : State}
    (hv : v = s.setPool p { s.pool p with activeBank := (s.pool p).roundBank }) :
    participants p (roundBegun p s) = participants p v := by
  have hframe := roundBegun_frame p s
  refine participants_congr p ?_ ?_ ?_ (roundBegun_banks hv)
  · rw [roundBegun_outlets, hv, State.setPool_outlets]
  · rw [hframe.demands, hv, State.setPool_demands]
  · rw [hframe.duty, hv, State.setPool_duty]

theorem roundTotals_bounds {c : Nat} {ps qs : List Part} (hqs : qs = allocate c ps) (hasc : ps.Pairwise fun a b => a.ch < b.ch)
    (hfu : ∀ p ∈ ps, p.fu ≤ p.e) : (roundTotals qs).sumGrant ≤ c ∧ (roundTotals qs).sumGrant ≤ (roundTotals qs).sumE ∧
    (roundTotals qs).curtailedCount ≤ (roundTotals qs).eligibleCount ∧ (roundTotals qs).eligibleCount = ps.length := by
  obtain ⟨r, hgiven, hdemand, hsum, -⟩ := allocate_filled hqs (channels_nodup_of_ascending hasc) hfu
  have hlength : qs.length = ps.length := by simpa using congrArg List.length hgiven
  exact ⟨(Nat.le_add_left _ r).trans hsum, total_le hdemand, List.length_filter_le .., hlength⟩

/-- Settles O37: the records a round writes, and then the event of its targets, the hand-over and the feeder demand. -/
theorem roundWritesPoolRecord : Obligations.RoundWritesPoolRecord := by
  unfold Obligations.RoundWritesPoolRecord
  rintro p s t rfl
  have hown : (runRound p s).pool p = { (s.pool p).begun (capacity p s) with totals := roundTotals (roundParts p s) } := by
    rw [runRound_pool, if_pos rfl]
  obtain ⟨hgrantC, hgrantE, hcurtailed, hcount⟩ := roundTotals_bounds (roundParts_eq p s) (participants_ascending p _)
    (participants_fu_le p _)
  obtain ⟨hdemands, hclock, hsensors⟩ := runRound_blocks p s
  have hpools := runRound_pools p s
  rw [hown]
  refine ⟨rfl, rfl, rfl, rfl, PoolRecord.roundBank_iff _, rfl, hgrantC, hgrantE, hcurtailed,
    hcount.le.trans (participants_length_le p _), fun q hq => ?_, ?_, fun h => ?_,
    hdemands, hclock, hsensors, runRound_isPending p s, ?_⟩
  · rw [runRound_pool, if_neg (Ne.symm hq)]
  · rw [hpools, roundRecords_steamPart]
  · rw [State.hwPart_congr hpools, roundRecords_hwPart]
  intro bank v qs hbank hv hqs
  obtain rfl := PoolRecord.eq_roundBank hbank
  rw [← participants_roundBegun hv, ← roundParts_eq] at hqs
  rw [hqs]
  refine ⟨rfl, rfl, ?_, fun q o warmKw hq ho hwarm => ?_, fun x hx => ?_, fun h c o hp hf ho => ?_, fun c =>
    ⟨runRound_absent, fun o ho => ?_⟩⟩
  · rw [← participants_roundBegun hv]
    exact roundParts_channels p s
  · rw [hwarm, ← State.activeProfile_of_banks (roundBegun_banks hv)]
    exact runRound_participant hq ho
  · have halike := (roundTargets_monitoredAlike hv).handOver p (roundParts p s)
    obtain ⟨-, -, -, -, -, -, hcurtail, hlog⟩ := runRound_frame p s
    rw [hcurtail, hlog, hx]
    exact ⟨halike.curtail, halike.log⟩
  · obtain ⟨u, hu, -, -, -, -, -, -, hfed, -⟩ := runRound_anyOutlet (p := p) ho
    exact ⟨u, hu, hfed h hp hf⟩
  · obtain ⟨u, hu, hfixed, hsetA, hsetB, hbars, hof, hdemand, -, hgrants⟩ := runRound_anyOutlet (p := p) ho
    exact ⟨u, hu, hfixed, hsetA, hsetB, hbars, hof, hdemand, hgrants⟩

end Sys2Proof.Machine
end

section
/-! DEMAND (R72 to R76). An item has one equation for each outcome of R73; the items of a payload are the items before the last
and then the last, and none of them changes what another item's checks read. -/

namespace Sys2Proof.Machine

/-! ### One item (R73 to R75) -/

theorem itemCheck_feeder {o : Outlet} (hf : o.feederOf ≠ none) : itemCheck (some o) = some .state :=
  if_pos (Option.isSome_iff_ne_none.2 hf)

theorem itemCheck_barred {o : Outlet} (hf : o.feederOf = none) (hb : o.bars.host = true ∨ o.bars.all = true) :
    itemCheck (some o) = some .barred := by
  simp [itemCheck, hf, hb]

theorem itemCheck_passes {o : Outlet} (hf : o.feederOf = none) (hh : o.bars.host = false) (ha : o.bars.all = false) :
    itemCheck (some o) = none := by
  simp [itemCheck, hf, hh, ha]

theorem demandItem_untranslated {addr : Nat} (kw : Nat) {s : State} {st : Status} (h : translate s.xlat addr = .error st) :
    demandItem addr kw s = (st, s) := by
  simp only [demandItem, h]

theorem demandItem_refused {addr : Nat} (kw : Nat) {s : State} {c : Channel} {st : Status} (hc : translate s.xlat addr = .ok c)
    (hst : itemCheck (s.outlet c) = some st) : demandItem addr kw s = (st, s) := by
  simp only [demandItem, hc, hst]

theorem demandItem_accepted {addr : Nat} (kw : Nat) {s : State} {c : Channel} {o : Outlet} (hc : translate s.xlat addr = .ok c)
    (ho : s.outlet c = some o) (hpass : itemCheck (some o) = none) :
    demandItem addr kw s = (if o.fixed.ratedKw < kw then .doneClamped else .done,
      s.setDemand c (.current (min kw o.fixed.ratedKw) (s.pool o.fixed.pool).settings.demandStaleS)) := by
  simp only [demandItem, hc, ho, hpass, doneStatus_decide]

/-- An item writes host demand records alone. -/
theorem demandItem_writes_demands (addr kw : Nat) (s : State) :
    ∃ ds : Table HostDemand 48, (demandItem addr kw s).2 = { s with demands := ds } := by
  unfold demandItem
  split
  · exact ⟨s.demands, rfl⟩
  · split
    · exact ⟨_, rfl⟩
    · exact ⟨s.demands, rfl⟩
    · exact ⟨s.demands, rfl⟩

/-! ### The items of a payload in order (R72, R76) -/

theorem readWord_drop (p : List Byte) (m i : Nat) : readWord (p.drop m) i = readWord p (m + i) := by
  simp [readWord, readByte, List.getD_eq_getElem?_getD, List.getElem?_drop, Nat.add_assoc]

/-- The first `n + 1` items are the first `n`, and then the item at byte `4 n` on the state they left. -/
theorem demandItems_succ (n : Nat) (p : List Byte) (s : State) :
    demandItems (n + 1) p s =
      ((demandItems n p s).1 ++
        [(demandItem (readWord p (4 * n)) (readWord p (4 * n + 2)) (demandItems n p s).2).1.code],
       (demandItem (readWord p (4 * n)) (readWord p (4 * n + 2)) (demandItems n p s).2).2) := by
  induction n generalizing p s with
  | zero => rfl
  | succ n ih =>
    have hnext : 4 + 4 * n = 4 * (n + 1) := by omega
    rw [demandItems, ih]
    simp only [readWord_drop, ← Nat.add_assoc, hnext]
    rfl

theorem demandItems_length (n : Nat) (p : List Byte) (s : State) : (demandItems n p s).1.length = n := by
  induction n with
  | zero => rfl
  | succ n ih => simp [demandItems_succ, ih]

theorem demandItems_writes_demands (n : Nat) (p : List Byte) (s : State) :
    ∃ ds : Table HostDemand 48, (demandItems n p s).2 = { s with demands := ds } := by
  induction n with
  | zero => exact ⟨s.demands, rfl⟩
  | succ n ih =>
    obtain ⟨ds, hbefore⟩ := ih
    obtain ⟨ds', hitem⟩ := demandItem_writes_demands (readWord p (4 * n)) (readWord p (4 * n + 2)) (demandItems n p s).2
    exact ⟨ds', by rw [demandItems_succ, hitem, hbefore]⟩

/-- What the checks of an item and its DEMAND_STALE_S are read from stands as before the request. -/
theorem demandItems_frame (n : Nat) (p : List Byte) (s : State) : (demandItems n p s).2.xlat = s.xlat ∧
    (∀ c : Channel, (demandItems n p s).2.outlet c = s.outlet c) ∧ ∀ q : Pool, (demandItems n p s).2.pool q = s.pool q := by
  obtain ⟨ds, hds⟩ := demandItems_writes_demands n p s
  rw [hds]
  exact ⟨rfl, fun c => rfl, State.pool_congr rfl⟩

/-- The status of an item stays where it stands when further items follow. -/
theorem getElem?_demandItems {n k : Nat} (p : List Byte) (s : State) (hk : k < n) : (demandItems n p s).1[k]? =
    some (demandItem (readWord p (4 * k)) (readWord p (4 * k + 2)) (demandItems k p s).2).1.code := by
  induction n with
  | zero => exact absurd hk k.not_lt_zero
  | succ n ih =>
    rw [demandItems_succ]
    rcases Nat.lt_succ_iff_lt_or_eq.1 hk with hlt | rfl
    · rw [List.getElem?_append_left (by rwa [demandItems_length]), ih hlt]
    · rw [List.getElem?_append_right (demandItems_length ..).le, demandItems_length, Nat.sub_self, List.getElem?_cons_zero]

/-- What an item answers and leaves is what stands at its place in the reply, and the state the next item acts on. -/
theorem demandItems_at {n k : Nat} {p : List Byte} {s t : State} {st : Status} (hk : k < n)
    (hitem : demandItem (readWord p (4 * k)) (readWord p (4 * k + 2)) (demandItems k p s).2 = (st, t)) :
    (demandItems n p s).1[k]? = some st.code ∧ (demandItems (k + 1) p s).2 = t := by
  rw [getElem?_demandItems p s hk, demandItems_succ, hitem]
  exact ⟨rfl, rfl⟩

/-! ### The statement -/

theorem exec_demand {s t : State} {f : Frame} {rest : List Frame} {a : Answer} {n : Nat} (h : s.takes f rest)
    (hk : f.kind = 0x05) (h₁ : 1 ≤ n) (h₁₆ : n ≤ 16) (hl : f.payload.length = 4 * n)
    (hb : demand f.payload (s.dequeue rest) = (a, t)) : exec .demand s = .next (t.answered f a) := by
  have hfit : fits .demand f.payload = true := by
    simp only [fits, hl, Bool.and_eq_true, beq_iff_eq, decide_eq_true_eq]
    omega
  exact request_answers h (requestRow_of_kind hk (by decide)) hfit hb

theorem demand_eq {p : List Byte} {n : Nat} (s : State) (hl : p.length = 4 * n) :
    demand p s = (⟨.done, (demandItems n p s).1⟩, (demandItems n p s).2) := by
  rw [demand, hl, Nat.mul_div_cancel_left n (by decide)]

/-- Settles O29: the state after `k` items is that of the first `k` of the payload, and the checks of the next read there
what they would have read before the request. -/
theorem demandItemsActInOrder : Obligations.DemandItemsActInOrder := by
  unfold Obligations.DemandItemsActInOrder
  intro s f rest n hs hk h₁ h₁₆ hl
  refine ⟨(demandItems n f.payload (s.dequeue rest)).1, fun k => (demandItems k f.payload (s.dequeue rest)).2, rfl,
    demandItems_length .., exec_demand hs hk h₁ h₁₆ hl (demand_eq _ hl), fun k hkn => ?_⟩
  obtain ⟨hxlat, houtlet, hpool⟩ := demandItems_frame k f.payload (s.dequeue rest)
  rw [State.dequeue_xlat] at hxlat
  simp only [State.dequeue_outlet, State.dequeue_pool] at houtlet hpool
  refine ⟨fun st hst => ?_, fun c hc => ?_⟩
  · exact demandItems_at hkn (demandItem_untranslated _ (by rwa [hxlat]))
  rw [← hxlat] at hc
  refine ⟨fun ho => ?_, fun o ho => ⟨fun hf => ?_, fun hf hb => ?_, fun hf hh ha => ?_⟩⟩
  · exact demandItems_at hkn (demandItem_refused _ hc (st := .state) (by rw [houtlet, ho]; rfl))
  · exact demandItems_at hkn (demandItem_refused _ hc (st := .state) (by rw [houtlet, ho, itemCheck_feeder hf]))
  · exact demandItems_at hkn (demandItem_refused _ hc (st := .barred) (by rw [houtlet, ho, itemCheck_barred hf hb]))
  · have haccepted := demandItems_at hkn
      (demandItem_accepted _ hc ((houtlet c).trans ho) (itemCheck_passes hf hh ha))
    rwa [hpool, apply_ite Status.code] at haccepted

end Sys2Proof.Machine
end

section
/-! The Curtailment Monitor (R86 to R92). The writes to the log that one event makes, one after another, are one update of the log
and a run of raises; a result is one update of the outlet's record with such writes. -/

namespace Sys2Proof.Machine

/-! ### Raises one after another (R183) -/

theorem foldl_raise_link_congr (ks : List NoticeKind) {s t : State} (h : s.link = t.link) :
    (ks.foldl (fun x k => raise k x) s).link = (ks.foldl (fun x k => raise k x) t).link := by
  induction ks generalizing s t with
  | nil => exact h
  | cons k ks ih => exact ih (raise_link_congr k h)

theorem foldl_raise_isPending (ks : List NoticeKind) (j : NoticeKind) (s : State) :
    (ks.foldl (fun x k => raise k x) s).isPending j = (s.isPending j || decide (j ∈ ks)) := by
  induction ks generalizing s with
  | nil => simp
  | cons k ks ih =>
    rw [List.foldl_cons, ih, raise_isPending]
    simp [Bool.or_assoc]

/-! ### Writes to the log (R89, R91) -/

/-- The log after the entries have been written, one after another: the newest 32 stay, and a loss sets LOST. -/
def CurtailLog.appended (l : CurtailLog) (xs : List LogEntry) : CurtailLog :=
  { entries := (l.entries ++ xs).drop (l.entries.length + xs.length - 32),
    lost := l.lost || decide (32 < l.entries.length + xs.length) }

theorem CurtailLog.appended_nil {l : CurtailLog} (h : l.entries.length ≤ 32) : l.appended [] = l := by
  simp [appended, Nat.sub_eq_zero_of_le h, Nat.not_lt.2 h]

theorem CurtailLog.length_appended (l : CurtailLog) (xs : List LogEntry) :
    (l.appended xs).entries.length = min (l.entries.length + xs.length) 32 := by
  simp [appended]
  omega

/-- One more write: a log that holds 32 entries loses its oldest. -/
theorem CurtailLog.appended_concat (l : CurtailLog) (xs : List LogEntry) (x : LogEntry) : l.appended (xs ++ [x]) =
    if 32 ≤ (l.appended xs).entries.length then
      { entries := (l.appended xs).entries.drop 1 ++ [x], lost := true }
    else { l.appended xs with entries := (l.appended xs).entries ++ [x] } := by
  rw [length_appended]
  unfold appended
  rw [← List.append_assoc, List.length_append, List.length_singleton, ← Nat.add_assoc]
  split
  · next h =>
    have hone : l.entries.length + xs.length + 1 - 32 = l.entries.length + xs.length - 32 + 1 := by omega
    rw [hone, List.drop_append_of_le_length (by rw [List.length_append]; omega), List.drop_drop,
      decide_eq_true (show 32 < l.entries.length + xs.length + 1 by omega), Bool.or_true]
  · next h =>
    have hnone : l.entries.length + xs.length + 1 - 32 = 0 := by omega
    have hnone' : l.entries.length + xs.length - 32 = 0 := by omega
    rw [hnone, hnone', List.drop_zero, List.drop_zero, decide_eq_false (by omega), decide_eq_false (by omega)]

/-- The raises of `n` writes to a log that holds `len` entries, in their order (R91). -/
def logRaises (len n : Nat) : List NoticeKind :=
  (List.range n).flatMap fun i => if 32 ≤ len + i then [.logLoss, .curtail] else [.curtail]

theorem logRaises_succ (len n : Nat) :
    logRaises len (n + 1) = logRaises len n ++ if 32 ≤ len + n then [.logLoss, .curtail] else [.curtail] := by
  simp [logRaises, List.range_succ]

theorem curtail_mem_logRaises (len n : Nat) : .curtail ∈ logRaises len n ↔ n ≠ 0 := by
  cases n with
  | zero => simp [logRaises]
  | succ n =>
    rw [logRaises_succ]
    split <;> simp

theorem logLoss_mem_logRaises {len : Nat} (h : len ≤ 32) (n : Nat) : .logLoss ∈ logRaises len n ↔ 32 < len + n := by
  induction n with
  | zero => simp [logRaises, h]
  | succ n ih =>
    rw [logRaises_succ, List.mem_append, ih]
    split
    · simp; omega
    · simp; omega

theorem mem_logRaises {len n : Nat} {k : NoticeKind} (h : k ∈ logRaises len n) : k = .curtail ∨ k = .logLoss := by
  obtain ⟨i, -, hk⟩ := List.mem_flatMap.1 h
  split at hk
  · simpa [or_comm] using hk
  · simpa using Or.inl hk

/-- Entries written to the log, one after another. -/
def writeLogs (xs : List LogEntry) (s : State) : State :=
  xs.foldl (fun u x => writeLog x u) s

theorem writeLogs_concat (xs : List LogEntry) (x : LogEntry) (s : State) :
    writeLogs (xs ++ [x]) s = writeLog x (writeLogs xs s) := by
  simp [writeLogs]

theorem writeLogs_eq {s : State} (h : s.logBounded) (xs : List LogEntry) : writeLogs xs s = { s with
    log := s.log.appended xs,
    link := ((logRaises s.log.entries.length xs.length).foldl (fun y k => raise k y) s).link } := by
  induction xs using List.reverseRecOn with
  | nil => rw [CurtailLog.appended_nil h]; rfl
  | append_singleton xs x ih =>
    have hfull : 32 ≤ (s.log.appended xs).entries.length ↔ 32 ≤ s.log.entries.length + xs.length := by
      rw [CurtailLog.length_appended]
      omega
    rw [writeLogs_concat, ih, writeLog_eq, Config.logLimit]
    simp only [List.length_append, List.length_singleton, logRaises_succ, List.foldl_append, CurtailLog.appended_concat, hfull]
    congr 1
    exact foldl_raise_link_congr _ rfl

theorem writeLog_setCurtailment (x : LogEntry) (c : Channel) (y : Curtailment) (s : State) :
    (writeLog x s).setCurtailment c y = writeLog x (s.setCurtailment c y) := by
  rw [writeLog_eq, writeLog_eq]
  simp only [State.setCurtailment, State.mk.injEq, true_and, and_true]
  exact ⟨foldl_raise_link_congr _ rfl, rfl⟩

/-! ### The tables of R87 and R88 -/

theorem counterStep_noDemand (reload counter grant : Nat) : counterStep reload counter 0 grant = (reload, none) := rfl

theorem counterStep_cut {e grant : Nat} (reload counter : Nat) (h : grant < e) : counterStep reload counter e grant =
    (counter - 1, if counter = 1 then some .curtailed else none) := by
  unfold counterStep
  rw [if_neg (by omega), if_pos h]
  rcases counter with _ | _ | n <;> rfl

theorem counterStep_met {e : Nat} (reload counter : Nat) (h : 0 < e) : counterStep reload counter e e =
    (reload, if counter = 0 then some .restored else none) := by
  unfold counterStep
  rw [if_neg (by omega), if_neg (Nat.lt_irrefl e)]

theorem floorCutStep_eq (flag : Bool) (fu grant : Nat) :
    floorCutStep flag fu grant = (decide (grant < fu), decide (grant < fu ∧ flag = false)) := by
  unfold floorCutStep
  split
  · next h => cases flag <;> simp [h]
  · next h => simp [h]

theorem reloadValue_present {s : State} {c : Channel} {o : Outlet} (ho : s.outlet c = some o) :
    reloadValue c s = (s.activeProfile o).tolerance := by
  rw [reloadValue, ho]

/-! ### A result (R86) -/

/-- The record that a result leaves (R87, R88). -/
def RoundResult.record (r : RoundResult) (s : State) : Curtailment :=
  { counter := (counterStep (reloadValue r.channel s) (s.curtailment r.channel).counter r.e r.grant).1,
    floorCut := decide (r.grant < r.fu) }

/-- The kinds of entry that the counter calls for (R87). -/
def RoundResult.counterKinds (r : RoundResult) (s : State) : List LogKind :=
  (counterStep (reloadValue r.channel s) (s.curtailment r.channel).counter r.e r.grant).2.toList

/-- The kind of entry that the flag calls for (R88). -/
def RoundResult.flagKinds (r : RoundResult) (s : State) : List LogKind :=
  if r.grant < r.fu ∧ (s.curtailment r.channel).floorCut = false then [.floorCut] else []

/-- The entries that a result writes, in their order. -/
def RoundResult.entries (r : RoundResult) (s : State) : List LogEntry :=
  (r.counterKinds s ++ r.flagKinds s).map fun k => logEntry k r s

/-- A result writes the outlet's record, and then the entries. -/
theorem takeResult_eq_writeLogs (r : RoundResult) (s : State) :
    takeResult r s = writeLogs (r.entries s) (s.setCurtailment r.channel (r.record s)) := by
  have hset (x y : Curtailment) : (s.setCurtailment r.channel x).setCurtailment r.channel y = s.setCurtailment r.channel y := by
    simp [State.setCurtailment]
  have hclock (k : LogKind) (x : LogEntry) (u : State) : logEntry k r (writeLog x u) = logEntry k r u := by
    rw [writeLog_eq]
    rfl
  have hstamp (k : LogKind) (y : Curtailment) : logEntry k r (s.setCurtailment r.channel y) = logEntry k r s := rfl
  unfold takeResult RoundResult.entries RoundResult.counterKinds RoundResult.flagKinds RoundResult.record writeLogs
  simp only [floorCutStep_eq, decide_eq_true_eq]
  rcases counterStep (reloadValue r.channel s) (s.curtailment r.channel).counter r.e r.grant with ⟨n, _ | k⟩
  · split <;> simp [hset, hstamp]
  · split <;> simp [hset, hstamp, hclock, writeLog_setCurtailment]

theorem takeResult_eq {s : State} (h : s.logBounded) (r : RoundResult) : takeResult r s = { s with
    curtail := s.curtail.set r.channel (r.record s), log := s.log.appended (r.entries s),
    link := ((logRaises s.log.entries.length (r.entries s).length).foldl (fun y k => raise k y) s).link } := by
  rw [takeResult_eq_writeLogs, writeLogs_eq (by exact h)]
  simp only [State.setCurtailment, State.mk.injEq, true_and, and_true]
  exact foldl_raise_link_congr _ rfl

/-- Which kinds a result makes pending (R91). -/
theorem takeResult_pends {s : State} (h : s.logBounded) (r : RoundResult) (k : NoticeKind) : (takeResult r s).isPending k =
    (s.isPending k || decide (k ∈ logRaises s.log.entries.length (r.entries s).length)) := by
  rw [← foldl_raise_isPending, takeResult_eq h]
  rfl

/-- Settles O41: the tables of R87 and R88 for the record and the entries, and the log, the raises and the frame from the result as
one update. -/
theorem resultMovesCounterAndFlag : Obligations.ResultMovesCounterAndFlag := by
  unfold Obligations.ResultMovesCounterAndFlag
  intro s t r o ho hge _ hlog ht
  have hreload := reloadValue_present ho
  have hlen : (r.entries s).length = (r.counterKinds s ++ r.flagKinds s).length := List.length_map ..
  have hpends (k : NoticeKind) := takeResult_pends hlog r k
  have hresult := takeResult_eq hlog r
  rw [← ht, hlen] at hpends hresult
  refine ⟨_, _, (r.record s).counter, r.counterKinds s, r.flagKinds s, fun k => logEntry k r s,
    logRaises s.log.entries.length (r.counterKinds s ++ r.flagKinds s).length, rfl, rfl, ?_, ?_, ?_, ?_, ?_, ?_, rfl,
    fun _ => rfl, ?_, ?_, ?_, ?_, ?_, rfl, ?_⟩
  · intro he
    simp [RoundResult.record, RoundResult.counterKinds, he, counterStep_noDemand, hreload]
  · intro hcut hcount
    simp [RoundResult.record, RoundResult.counterKinds, counterStep_cut _ _ hcut,
      show (s.curtailment r.channel).counter ≠ 1 by omega]
  · intro hcut hcount
    simp [RoundResult.record, RoundResult.counterKinds, counterStep_cut _ _ hcut, hcount]
  · intro hcut hcount
    simp [RoundResult.record, RoundResult.counterKinds, counterStep_cut _ _ hcut, hcount]
  · intro he hmet hcount
    simp [RoundResult.record, RoundResult.counterKinds, hmet, counterStep_met _ _ he, hreload,
      show (s.curtailment r.channel).counter ≠ 0 by omega]
  · intro he hmet hcount
    simp [RoundResult.record, RoundResult.counterKinds, hmet, counterStep_met _ _ he, hreload, hcount]
  · rw [hresult, ← hlen]
    rfl
  · rw [hresult, ← hlen]
    rfl
  · rw [hpends]
    simp only [curtail_mem_logRaises, ne_eq, List.length_eq_zero_iff]
  · rw [hpends]
    simp only [logLoss_mem_logRaises (by exact hlog)]
  · intro k hc hl
    rw [hpends, decide_eq_false fun hk => (mem_logRaises hk).elim hc hl, Bool.or_false]
  · rw [hresult]
    rfl

/-! ### READ_LOG (R92) -/

theorem exec_readLog {s t : State} {f : Frame} {rest : List Frame} {a : Answer} (h : s.takes f rest) (hk : f.kind = 0x16)
    (hp : f.payload = []) (hb : readLog f.payload (s.dequeue rest) = (a, t)) : exec .readLog s = .next (t.answered f a) :=
  request_answers h (requestRow_of_kind hk (by decide)) (by rw [hp]; rfl) hb

/-- Settles O42: the eight oldest entries and the others are the log cut at place 8. -/
theorem readLogTakesOldestEntries : Obligations.ReadLogTakesOldestEntries := by
  unfold Obligations.ReadLogTakesOldestEntries
  intro s f rest hs hk hp
  exact ⟨s.log.entries.take 8, s.log.entries.drop 8, _, (List.take_append_drop ..).symm, List.length_take,
    exec_readLog hs hk hp rfl, rfl⟩

end Sys2Proof.Machine
end

section
/-! The records of the translator, the log, the scanner and the clock: every step keeps the ranges apart, the log bounded, and inputs
and clock in range (R89, R160, R164, R168, R171). Most operations write none of the four; what is left are RANGE_SET, the log
writes of a round, READ_LOG, the sample event, the clock, and the resets. -/

namespace Sys2Proof.Machine

/-! ### The invariant and the records it speaks of -/

/-- What the invariant speaks of: the ranges, the log, the input records and the clock. -/
def State.records (s : State) : Table BranchRange 4 × CurtailLog × Table Sensor 51 × PlantClock :=
  (s.xlat.ranges, s.log, s.sensors, s.clock)

/-- The ranges are apart, the log is bounded, inputs and clock are in range. -/
structure State.recordsInRange (s : State) : Prop where
  ranges : s.rangesApart
  log : s.logBounded
  scanner : s.scannerInRange

theorem State.recordsInRange.congr {s t : State} (h : s.recordsInRange) (e : t.records = s.records) : t.recordsInRange := by
  obtain ⟨hranges, hlog, hsensors, hclock⟩ :
      t.xlat.ranges = s.xlat.ranges ∧ t.log = s.log ∧ t.sensors = s.sensors ∧ t.clock = s.clock := by
    simpa [State.records] using e
  refine ⟨?_, ?_, ?_⟩
  · rw [State.rangesApart, hranges]
    exact h.ranges
  · rw [State.logBounded, hlog]
    exact h.log
  · simp only [State.scannerInRange, State.sensor, hsensors, hclock]
    exact h.scanner

/-! ### Updates that write none of the records -/

section
variable (s : State)

@[simp] theorem State.setOutlet_records (c : Channel) (o : Option Outlet) : (s.setOutlet c o).records = s.records := rfl
@[simp] theorem State.modifyOutlet_records (c : Channel) (f : Outlet → Outlet) : (s.modifyOutlet c f).records = s.records := rfl
@[simp] theorem State.setDemand_records (c : Channel) (d : HostDemand) : (s.setDemand c d).records = s.records := rfl
@[simp] theorem State.setSteamPart_records (x : SteamPart) : (s.setSteamPart x).records = s.records := rfl
@[simp] theorem State.modifyPosition_records (c : Channel) (f : Position → Position) :
    (s.modifyPosition c f).records = s.records := rfl
@[simp] theorem State.setSlot_records (i : SlotId) (x : ProgSlot) : (s.setSlot i x).records = s.records := rfl
@[simp] theorem State.modifySlot_records (i : SlotId) (f : ProgSlot → ProgSlot) : (s.modifySlot i f).records = s.records := rfl
@[simp] theorem initNeighbours_records (c : Channel) (n : Nat) : (initNeighbours c n s).records = s.records := rfl
@[simp] theorem setBho_records (b : BankId) (v : Bool) : (setBho b v s).records = s.records := rfl
@[simp] theorem setHandedOff_records (b : BankId) (v : Bool) : (setHandedOff b v s).records = s.records := rfl

@[simp] theorem State.setPool_records (p : Pool) (r : PoolRecord) : (s.setPool p r).records = s.records := by
  rcases p with _ | _ | _ <;> rfl

@[simp] theorem State.setHwPart_records (h : HwPool) (x : HwPart) : (s.setHwPart h x).records = s.records := by
  cases h <;> rfl

@[simp] theorem setLimit_records (c : Channel) (line : LimitLine) (active : Bool) :
    (setLimit c line active s).records = s.records := by
  cases line <;> rfl

@[simp] theorem raise_records (k : NoticeKind) : (raise k s).records = s.records := by
  simp [State.records]

end

/-- A run of operations that each leave the records leaves them. -/
theorem foldl_records {α : Type} {f : State → α → State} (hf : ∀ u a, (f u a).records = u.records) (as : List α)
    (s : State) : (as.foldl f s).records = s.records :=
  List.foldlRecOn (motive := fun u : State => u.records = s.records) as f rfl fun u hu a _ => (hf u a).trans hu

/-! ### The duty steps and the Drive Unit -/

theorem keptByDrive_records (s : State) : KeptByDrive (fun u => u.records = s.records) where
  slot _ _ _ _ _ h := h
  claim _ _ _ h := h
  raise u k h := (raise_records u k).trans h
  position _ _ _ _ _ h := h
  queue _ _ _ h := h
  report _ _ _ _ _ _ h := h

section
variable (s : State)

@[simp] theorem runDuty_records (ts : List DutyTask) : (runDuty ts s).records = s.records :=
  (keptByDrive_records s).runDuty ts rfl

@[simp] theorem failStepsOn_records (c : Channel) (r : FailReason) : (failStepsOn c r s).records = s.records :=
  (keptByDrive_records s).failStepsOn c r rfl

@[simp] theorem releaseStep_records (i : SlotId) : (releaseStep i s).1.records = s.records :=
  (keptByDrive_records s).releaseStep i rfl

@[simp] theorem beginPass_records (i : SlotId) (m : Nat) : (beginPass i m s).records = s.records :=
  (keptByDrive_records s).beginPass i m rfl

@[simp] theorem giveTarget_records (c : Channel) (t : Nat) : (giveTarget c t s).records = s.records :=
  (keptByDrive_records s).giveTarget_any (fun _ _ _ h => h) c t rfl

@[simp] theorem stopChannel_records (c : Channel) : (stopChannel c s).records = s.records :=
  (keptByDrive_records s).stopChannel c rfl

@[simp] theorem requestHoming_records (c : Channel) : (requestHoming c s).records = s.records :=
  (keptByDrive_records s).requestHoming c rfl

theorem limitEvent_records (c : Channel) (line : LimitLine) (active : Bool) :
    (limitEvent c line active s).records = s.records := by
  have htaken := (keptByDrive_records s).limitTaken c line active (setLimit_records s c line active)
  unfold limitEvent
  simp only
  split
  · rfl
  · split
    · exact setLimit_records ..
    · exact htaken

end

/-! ### The requests of the Outlet Table and of the Demand Intake -/

theorem atOutlet_records {p : List Byte} {s : State} {f : Channel → Answer × State} (hf : ∀ c, (f c).2.records = s.records) :
    (atOutlet p s f).2.records = s.records :=
  atOutlet_keeps (P := fun u => u.records = s.records) rfl hf

section
variable (p : List Byte) (s : State)

theorem createOutlet_records (c : Channel) (fx : FixedPart) (prof : Profile) :
    (createOutlet c fx prof s).records = s.records := by
  unfold createOutlet
  split <;> simp

theorem writeOutlet_records (c : Channel) (rawF : FixedPart) (rawP : Profile) :
    (writeOutlet c rawF rawP s).2.records = s.records := by
  unfold writeOutlet
  simp only
  split
  · exact createOutlet_records ..
  · split
    · rfl
    · simp

theorem outletSet_records : (outletSet p s).2.records = s.records := by
  refine atOutlet_records fun c => ?_
  split
  · simp only
    split
    · exact writeOutlet_records ..
    · rfl
  · rfl

theorem outletDrop_records : (outletDrop p s).2.records = s.records := by
  refine atOutlet_records fun c => ?_
  split
  · rfl
  · simp

theorem profileSet_records : (profileSet p s).2.records = s.records := by
  refine atOutlet_records fun c => ?_
  split
  · split
    · rfl
    · simp only
      split
      · rfl
      · split <;> rfl
  · rfl

theorem applyBars_records (c : Channel) (old new : Bars) : (applyBars c old new s).records = s.records := by
  have hlock : (lockOutlet c s).records = s.records := by
    unfold lockOutlet
    split
    · rfl
    · split <;> simp
  have hall : (if old.all = false ∧ new.all = true then lockOutlet c s
      else if old.all = true ∧ new.all = false then unlockOutlet c s else s).records = s.records := by
    split
    · exact hlock
    · split <;> rfl
  unfold applyBars
  simp only
  split
  · exact (failStepsOn_records ..).trans hall
  · exact hall

theorem barSet_records : (barSet p s).2.records = s.records := by
  refine atOutlet_records fun c => ?_
  split
  · rfl
  · split
    · rfl
    · exact applyBars_records ..

theorem rehome_records : (rehome p s).2.records = s.records := by
  refine atOutlet_records fun c => ?_
  split <;> simp

theorem faultClear_records : (faultClear p s).2.records = s.records := by
  refine atOutlet_records fun c => ?_
  split
  · rfl
  · split <;> simp

theorem demand_records : (demand p s).2.records = s.records := by
  obtain ⟨ds, hds⟩ := demandItems_writes_demands (p.length / 4) p s
  rw [demand, hds]
  rfl

theorem stalenessTimerExpiry_records (c : Channel) : (stalenessTimerExpiry c s).records = s.records := by
  unfold stalenessTimerExpiry
  split <;> simp

/-! ### The requests of the Supply Pools that run no round -/

theorem capacityStalenessExpiry_records : (capacityStalenessExpiry s).records = s.records := by
  rw [capacityStalenessExpiry_eq]
  split <;> simp

theorem profileSwap_records : (profileSwap p s).2.records = s.records := by
  unfold profileSwap
  split
  · rfl
  · simp only
    split <;> simp

theorem designate_records (h : HwPool) (old new : Option Channel) : (designate h old new s).records = s.records := by
  cases old <;> cases new <;> simp only [designate] <;> split <;> rfl

theorem disablePool_records (q : Pool) : (disablePool q s).records = s.records := by
  have hrecords : (disableRecords q s).records = s.records := by
    rw [disableRecords_frame q s]
    rfl
  refine (foldl_records (fun u c => ?_) _ _).trans hrecords
  split <;> simp

/-! ### The programs, the hand-off and the samples -/

theorem progLoadFirst_records : (progLoadFirst p s).2.records = s.records := by
  have hload (i : SlotId) (start : Option Nat) (cont : Bool) : (loadFirst i p start cont s).2.records = s.records := by
    unfold loadFirst
    split
    · rfl
    · split <;> rfl
  unfold progLoadFirst
  split
  · rfl
  · split
    · rfl
    · split
      · rfl
      · split
        · split
          · exact hload ..
          · rfl
        · rfl

theorem progLoadNext_records : (progLoadNext p s).2.records = s.records := by
  unfold progLoadNext
  split
  · rfl
  · split
    · rfl
    · split
      · rfl
      · split
        · rfl
        · split <;> rfl

theorem progStart_records : (progStart p s).2.records = s.records := by
  have hrun (i : SlotId) : (startRun i s).records = s.records := by
    unfold startRun
    split <;> simp
  unfold progStart
  split
  · rfl
  · split
    · rfl
    · split
      · rfl
      · exact hrun _

theorem progStop_records : (progStop p s).2.records = s.records := by
  unfold progStop
  split
  · rfl
  · split
    · simp [stopRun]
    · rfl

theorem reachTimerExpiry_records (i : SlotId) : (reachTimerExpiry i s).records = s.records := by
  unfold reachTimerExpiry
  split <;> simp

theorem holdTimerExpiry_records (i : SlotId) : (holdTimerExpiry i s).records = s.records := by
  unfold holdTimerExpiry
  split <;> simp

theorem gapTimerExpiryProg_records (i : SlotId) : (gapTimerExpiryProg i s).records = s.records := by
  unfold gapTimerExpiryProg
  split <;> simp

theorem bhoAssertion_records (b : BankId) : (bhoAssertion b s).records = s.records := by
  have hrelease (u : State) (c : Channel) : (releaseDrive u c).records = u.records := by simp [releaseDrive]
  have hhold (u : State) (c : Channel) : (holdOutlet u c).records = u.records := by
    unfold holdOutlet
    split
    · rfl
    · split <;> simp
  unfold bhoAssertion
  simp only
  split
  · rfl
  · split
    · rfl
    · simp [takeBank, foldl_records hrelease, foldl_records hhold]

theorem bhoRelease_records (b : BankId) : (bhoRelease b s).records = s.records := by
  have hhome (u : State) (c : Channel) : (rehomeHeld u c).records = u.records := by
    unfold rehomeHeld
    split
    · rfl
    · split <;> simp
  unfold bhoRelease
  simp only
  split
  · split
    · rfl
    · simp [returnBank, foldl_records hhome]
  · rfl

theorem handSample_records (c : Channel) (valid : Bool) (r : Int) (before x : Sensor) :
    (handSample c valid r before x s).records = s.records := by
  have hreach (u : State) (i : SlotId) (st : Step) : (reachTemp i st u).records = u.records := by
    rw [reachTemp_eq]
    split <;> simp
  have hdip (u : State) (i : SlotId) (st : Step) : (dip i st u).records = u.records := by
    unfold dip
    simp only
    split <;> simp
  have hstep (u : State) : (sampleStep c r u).records = u.records := by
    unfold sampleStep
    split
    · rfl
    · split
      · split
        · exact hreach ..
        · rfl
      · split
        · exact hdip ..
        · rfl
      · rfl
      · rfl
  have hfail : (sensorFailure c s).records = s.records := by
    unfold sensorFailure
    split
    · rfl
    · split <;> simp
  unfold handSample
  split
  · exact hstep _
  · split
    · exact hfail
    · rfl

/-! ### The link and the translator's map -/

theorem mapSet_records : (mapSet p s).2.records = s.records := by
  unfold mapSet
  simp only
  split
  · rfl
  · split <;> rfl

theorem noticeMask_records : (noticeMask p s).2.records = s.records := by
  unfold noticeMask
  simp only
  split <;> rfl

theorem receive_records (bs : List Byte) : (receive bs s).records = s.records := by
  have hhand (u : State) (f : Frame) : (handFrame f u).records = u.records := by
    unfold handFrame
    split
    · rfl
    · split <;> rfl
  exact foldl_records hhand ..

theorem frameArrival_records (bytes : List Byte) : (frameArrival bytes s).records = s.records := by
  unfold frameArrival
  split
  · rfl
  · split <;> exact receive_records ..

theorem gapTimerExpiry_records : (gapTimerExpiry s).records = s.records := by
  unfold gapTimerExpiry
  split
  · rfl
  · split
    · exact receive_records ..
    · rfl

end

/-! ### The log (R89, R92) -/

/-- A result writes to the log and to none of the other records, and the log stays bounded. -/
theorem State.recordsInRange.takeResult {s : State} (h : s.recordsInRange) (r : RoundResult) :
    (Machine.takeResult r s).recordsInRange := by
  rw [takeResult_eq h.log]
  refine ⟨h.ranges, ?_, h.scanner⟩
  rw [State.logBounded, CurtailLog.length_appended]
  exact min_le_right ..

theorem readLog_keeps_recordsInRange (p : List Byte) (s : State) (h : s.recordsInRange) : (readLog p s).2.recordsInRange :=
  ⟨h.ranges, (List.drop_sublist ..).length_le.trans h.log, h.scanner⟩

/-! ### The allocation round -/

theorem targetStage_records (p : Pool) (ps : List Part) (s : State) : (targetStage p ps s).records = s.records := by
  refine (foldl_records (fun u q => ?_) ps _).trans ?_
  · unfold targetOutlet
    split
    · split <;> simp
    · rfl
  · exact (State.setPool_records ..).trans (foldl_records (f := grantOutlet) (fun _ _ => rfl) ps s)

theorem roundBegun_records (p : Pool) (s : State) : (roundBegun p s).records = s.records := by
  rw [roundBegun_frame p s]
  rfl

theorem feederStage_records (p : Pool) (ps : List Part) (a : Nat) (s : State) : (feederStage p ps a s).records = s.records := by
  rw [feederStage_frame]
  rfl

theorem runRound_keeps_recordsInRange (p : Pool) {s : State} (h : s.recordsInRange) : (runRound p s).recordsInRange := by
  have hbegun : (roundBegun p s).recordsInRange := h.congr (roundBegun_records p s)
  have htargets := hbegun.congr (targetStage_records p (roundGrants p (roundBegun p s)) (roundBegun p s))
  have hresults : (handOver p (roundGrants p (roundBegun p s))
      (targetStage p (roundGrants p (roundBegun p s)) (roundBegun p s))).recordsInRange :=
    List.foldlRecOn (motive := State.recordsInRange) _ _ htargets fun _ hu _ _ => hu.takeResult _
  exact hresults.congr (feederStage_records ..)

theorem roundTimerExpiry_keeps_recordsInRange (p : Pool) {s : State} (h : s.recordsInRange) :
    (roundTimerExpiry p s).recordsInRange := by
  rw [roundTimerExpiry_eq]
  split
  · exact runRound_keeps_recordsInRange p h
  · exact h

theorem rebalance_keeps_recordsInRange (p : List Byte) (s : State) (h : s.recordsInRange) :
    (rebalance p s).2.recordsInRange := by
  unfold rebalance
  split
  · exact h
  · split
    · exact runRound_keeps_recordsInRange _ h
    · exact h

theorem applyEnable_keeps_recordsInRange (p : Pool) (was is_ : Bool) {s : State} (h : s.recordsInRange) :
    (applyEnable p was is_ s).recordsInRange := by
  unfold applyEnable
  split
  · exact runRound_keeps_recordsInRange p h
  · exact h.congr (disablePool_records s p)
  · exact h
  · exact h

theorem poolSet_keeps_recordsInRange (p : List Byte) (s : State) (h : s.recordsInRange) : (poolSet p s).2.recordsInRange := by
  unfold poolSet
  split
  · unfold poolSetSteam
    simp only
    split
    · exact applyEnable_keeps_recordsInRange _ _ _ (h.congr (by simp))
    · exact h
  · unfold poolSetHw
    split
    · exact h
    · exact applyEnable_keeps_recordsInRange _ _ _ (h.congr ((designate_records ..).trans (by simp)))
  · exact h
  · exact h

/-! ### The ranges (R168, R171) -/

theorem BranchRange.hits_iff (r : BranchRange) (a : Nat) :
    r.hits a = true ↔ r.enable = true ∧ r.base ≤ a ∧ a < r.base + r.size := by
  simp [hits, and_assoc]

/-- Two ranges that hit one address meet. -/
theorem BranchRange.meets_of_hits {r q : BranchRange} {a : Nat} (hr : r.hits a = true) (hq : q.hits a = true) :
    r.meets q = true := by
  rw [hits_iff] at hr hq
  obtain ⟨-, hr₁, hr₂⟩ := hr
  obtain ⟨-, hq₁, hq₂⟩ := hq
  simp only [meets, Bool.and_eq_true, decide_eq_true_eq]
  omega

/-- Where check 5 of R171 finds nothing, no other range hits an address of the record. -/
theorem not_hits_of_overlapWith_none {x : Translator} {i j : Fin 4} {r : BranchRange} (h : overlapWith x i r = none) (hj : j ≠ i)
    {a : Nat} (hr : r.hits a = true) : (x.ranges.get j).hits a = false := by
  by_contra hq
  rw [Bool.not_eq_false] at hq
  obtain ⟨hen, -⟩ := (r.hits_iff a).1 hr
  obtain ⟨hen', -⟩ := ((x.ranges.get j).hits_iff a).1 hq
  rw [overlapWith, if_pos hen] at h
  have hno := List.find?_eq_none.1 h j (mem_indices j)
  simp [hj, hen', BranchRange.meets_of_hits hr hq] at hno

theorem State.rangesApart.setRange {s : State} (h : s.rangesApart) {i : Fin 4} {r : BranchRange} (hr : r.wellFormed = true)
    (hfree : overlapWith s.xlat i r = none) :
    { s with xlat := { s.xlat with ranges := s.xlat.ranges.set i r } }.rangesApart := by
  obtain ⟨hwell, hapart⟩ := h
  refine ⟨fun j => ?_, fun j k hjk hj hk a ⟨hja, hka⟩ => ?_⟩
  · simp only [Table.get_set]
    split
    · exact hr
    · exact hwell j
  · simp only [Table.get_set] at hj hk hja hka
    by_cases hij : i = j
    · subst hij
      rw [if_pos rfl] at hja
      rw [if_neg hjk, not_hits_of_overlapWith_none hfree hjk.symm hja] at hka
      cases hka
    · rw [if_neg hij] at hj hja
      by_cases hik : i = k
      · subst hik
        rw [if_pos rfl] at hka
        rw [not_hits_of_overlapWith_none hfree hjk hka] at hja
        cases hja
      · rw [if_neg hik] at hk hka
        exact hapart j k hjk hj hk a ⟨hja, hka⟩

theorem rangeSet_keeps_recordsInRange (p : List Byte) (s : State) (h : s.recordsInRange) : (rangeSet p s).2.recordsInRange := by
  have hwrite (i : Fin 4) (r : BranchRange) : (writeRange i r s).2.recordsInRange := by
    unfold writeRange
    split
    · next hr =>
      split
      · exact h
      · next hfree => exact ⟨h.ranges.setRange hr hfree, h.log, h.scanner⟩
    · exact h
  unfold rangeSet
  split
  · exact hwrite ..
  · exact h

/-! ### The scanner and the clock (R160, R164) -/

theorem sampleRecord_inRange {i : InputId} {x : Sensor} (r : Int) (h : x.inRange i) :
    (sampleRecord (readingValid i r) r x).inRange i := by
  obtain ⟨hlast, hbad, hgood, -, hclear, hset⟩ := h
  unfold sampleRecord
  split
  · next hv =>
    refine ⟨hv, Nat.zero_le _, min_le_left .., .inl rfl, fun _ => Nat.zero_lt_two, fun hf => ?_⟩
    simp only [Bool.and_eq_true, decide_eq_true_eq] at hf
    exact min_lt_of_right_lt hf.2
  · refine ⟨hlast, min_le_left .., Nat.zero_le _, .inr rfl, fun hf => ?_, fun _ => Nat.zero_lt_succ _⟩
    simp only [Bool.or_eq_false_iff, decide_eq_false_iff_not, Nat.not_le] at hf
    exact min_lt_of_right_lt hf.2

theorem sampledState_keeps_recordsInRange (i : InputId) (r : Int) {s : State} (h : s.recordsInRange) :
    (sampledState i (sampleRecord (readingValid i r) r (s.sensor i)) s).recordsInRange := by
  have hset : (s.setSensor i (sampleRecord (readingValid i r) r (s.sensor i))).recordsInRange := by
    obtain ⟨hsensors, hclock⟩ := h.scanner
    refine ⟨h.ranges, h.log, fun j => ?_, hclock⟩
    rw [State.sensor_setSensor]
    split
    · next e => exact e ▸ sampleRecord_inRange r (hsensors i)
    · exact hsensors j
  unfold sampledState
  split
  · exact hset
  · exact hset.congr (raise_records ..)

theorem sampleEvent_keeps_recordsInRange (i : InputId) (r : Int) {s : State} (h : s.recordsInRange) :
    (sampleEvent i r s).recordsInRange := by
  have hsampled := sampledState_keeps_recordsInRange i r h
  by_cases hi : i.val < 48
  · rw [sampleEvent_branch (c := ⟨i.val, hi⟩) r s rfl]
    exact hsampled.congr (handSample_records ..)
  · rw [sampleEvent_plant r s (by omega)]
    exact hsampled

/-- A clock in range is written. -/
theorem State.recordsInRange.withClock {s t : State} (h : s.recordsInRange) {x : PlantClock} (hm : x.minute < Config.weekMinutes)
    (hs : x.second < 60) (e : t.records = { s with clock := x }.records) : t.recordsInRange := by
  obtain ⟨hsensors, -⟩ := h.scanner
  exact State.recordsInRange.congr (s := { s with clock := x }) ⟨h.ranges, h.log, hsensors, hm, hs⟩ e

theorem advanceClock_inRange {x : PlantClock} (hm : x.minute < Config.weekMinutes) :
    (advanceClock x).1.minute < Config.weekMinutes ∧ (advanceClock x).1.second < 60 := by
  unfold advanceClock
  split
  · next h => exact ⟨hm, h⟩
  · exact ⟨Nat.mod_lt _ (by decide), Nat.zero_lt_succ _⟩

theorem clockTick_keeps_recordsInRange {s : State} (h : s.recordsInRange) : (clockTick s).recordsInRange := by
  obtain ⟨-, hm, -⟩ := h.scanner
  obtain ⟨hminute, hsecond⟩ := advanceClock_inRange hm
  refine h.withClock hminute hsecond ?_
  unfold clockTick
  simp only
  split
  · exact foldl_records (fun u i => beginPass_records u i _) ..
  · rfl

theorem clockSet_keeps_recordsInRange (p : List Byte) (s : State) (h : s.recordsInRange) : (clockSet p s).2.recordsInRange := by
  unfold clockSet
  split
  · exact h
  · next hr =>
    obtain ⟨hm, hs⟩ := not_or.1 hr
    exact h.withClock (Nat.not_le.1 hm) (Nat.not_le.1 hs) rfl

/-! ### The resets (R166, R175, R188, R189) -/

theorem reset_recordsInRange : State.reset.recordsInRange :=
  ⟨reset_rangesApart, Nat.zero_le _, reset_scannerInRange⟩

theorem afterReset_recordsInRange (speed : LinkSpeed) (bho : Table Bool 6) (olim clim : Table Bool 48) (n : Nat)
    (pending : List Instr) : (afterReset speed bho olim clim n pending).recordsInRange :=
  reset_recordsInRange.congr rfl

theorem frameSent_keeps_recordsInRange {s : State} (h : s.recordsInRange) : (frameSent s).recordsInRange := by
  unfold frameSent
  split
  · exact h
  · split
    · exact afterReset_recordsInRange ..
    · exact h.congr rfl

/-! ### Every command, and every step -/

/-- A command keeps the invariant: a request by its body and an event by its meaning, most of them since they leave the records. -/
theorem exec_keeps_recordsInRange {i : Instr} {s t : State} (h : s.recordsInRange) (ht : exec i s = .next t) :
    t.recordsInRange := by
  have req := fun (row : Instr) (body : List Byte → State → Answer × State)
      (hbody : ∀ (p : List Byte) (s : State), s.recordsInRange → (body p s).2.recordsInRange)
      (ht : request row body s = .next t) => request_keeps (fun _ _ h => h.congr rfl) hbody h ht
  have other := fun (row : Instr) (body : List Byte → State → Answer × State)
      (hbody : ∀ (p : List Byte) (s : State), (body p s).2.records = s.records) =>
    req row body fun p s hs => hs.congr (hbody p s)
  have reads := fun (row : Instr) (body : List Byte → State → Answer × State) (hb : ∀ p s, (body p s).2 = s) =>
    other row body fun p s => congrArg State.records (hb p s)
  have event := fun (f : State → State) (hf : (f s).recordsInRange) (ht : running f s = .next t) => running_keeps h hf ht
  have otherEvent := fun (f : State → State) (hf : (f s).records = s.records) => event f (h.congr hf)
  cases i with
  | frameArrival bytes => exact otherEvent _ (frameArrival_records s bytes) ht
  | gapTimerExpiry => exact otherEvent _ (gapTimerExpiry_records s) ht
  | badKind => exact reads _ _ (fun _ _ => rfl) ht
  | frameSent => exact event _ (frameSent_keeps_recordsInRange h) ht
  | rstnAsserted => cases ht; exact h.congr rfl
  | hardwareReset => cases ht; exact afterReset_recordsInRange ..
  | outletSet => exact other _ _ outletSet_records ht
  | outletDrop => exact other _ _ outletDrop_records ht
  | profileSet => exact other _ _ profileSet_records ht
  | barSet => exact other _ _ barSet_records ht
  | demand => exact other _ _ demand_records ht
  | rehome => exact other _ _ rehome_records ht
  | faultClear => exact other _ _ faultClear_records ht
  | poolSet => exact req _ _ poolSet_keeps_recordsInRange ht
  | profileSwap => exact other _ _ profileSwap_records ht
  | supply => exact other _ _ (fun _ _ => rfl) ht
  | rebalance => exact req _ _ rebalance_keeps_recordsInRange ht
  | rangeSet => exact req _ _ rangeSet_keeps_recordsInRange ht
  | mapSet => exact other _ _ mapSet_records ht
  | progLoadFirst => exact other _ _ progLoadFirst_records ht
  | progLoadNext => exact other _ _ progLoadNext_records ht
  | progStart => exact other _ _ progStart_records ht
  | progStop => exact other _ _ progStop_records ht
  | clockSet => exact req _ _ clockSet_keeps_recordsInRange ht
  | readOutlet => exact reads _ _ readOutlet_snd ht
  | readPool => exact reads _ _ readPool_snd ht
  | readProg => exact reads _ _ readProg_snd ht
  | readSensors => exact reads _ _ readSensors_snd ht
  | readLog => exact req _ _ readLog_keeps_recordsInRange ht
  | readStatus => exact reads _ _ (fun _ _ => rfl) ht
  | noticeAck => exact other _ _ (fun _ _ => rfl) ht
  | noticeMask => exact other _ _ noticeMask_records ht
  | reset => exact other _ _ (fun _ _ => rfl) ht
  | roundTimerExpiry p => exact event _ (roundTimerExpiry_keeps_recordsInRange p h) ht
  | capacityStalenessExpiry => exact otherEvent _ (capacityStalenessExpiry_records s) ht
  | stalenessTimerExpiry c => exact otherEvent _ (stalenessTimerExpiry_records s c) ht
  | warmTimerExpiry c => exact otherEvent _ rfl ht
  | sampleEvent i r => exact event _ (sampleEvent_keeps_recordsInRange i r h) ht
  | clockTick => exact event _ (clockTick_keeps_recordsInRange h) ht
  | moveTimerExpiry c => exact otherEvent _ ((keptByDrive_records s).moveTimerExpiry c rfl) ht
  | checkTimerExpiry c => exact otherEvent _ ((keptByDrive_records s).checkTimerExpiry c rfl) ht
  | pauseTimerExpiry c => exact otherEvent _ ((keptByDrive_records s).pauseTimerExpiry c rfl) ht
  | limitEvent c line active => cases ht; exact h.congr (limitEvent_records s c line active)
  | bhoAssertion b => cases ht; exact h.congr (bhoAssertion_records s b)
  | bhoRelease b => cases ht; exact h.congr (bhoRelease_records s b)
  | reachTimerExpiry i => exact otherEvent _ (reachTimerExpiry_records s i) ht
  | holdTimerExpiry i => exact otherEvent _ (holdTimerExpiry_records s i) ht
  | gapTimerExpiryProg i => exact otherEvent _ (gapTimerExpiryProg_records s i) ht

/-- Settles O58: a step is a command on the state with the rest of the queue, or a tick of the millisecond timebase, which writes
none of the records. -/
theorem stepKeepsRecordsInRange : Obligations.StepKeepsRecordsInRange := by
  unfold Obligations.StepKeepsRecordsInRange
  intro s t hranges hlog hscanner ht
  have h : s.recordsInRange := ⟨hranges, hlog, hscanner⟩
  have hidle : (idle s).records = s.records := by
    unfold idle
    split <;> rfl
  obtain ⟨hranges', hlog', hscanner'⟩ : t.recordsInRange := by
    unfold step at ht
    split at ht
    · cases ht
      exact h.congr hidle
    · next c rest _ => exact exec_keeps_recordsInRange (s := { s with pending := rest }) (h.congr rfl) ht
  exact ⟨hranges', hlog', hscanner'⟩

end Sys2Proof.Machine
end

section
/-! An idle step (log 4), and the events of the Drive Unit's timers and of the limit inputs (R103, R105 to R108, R111, R122): each
outcome of an event is a branch of its meaning. -/

namespace Sys2Proof.Machine

/-! ### The millisecond timebase (R103) -/

theorem idle_eq_self {s : State} (h : s.rstLow = true ∨ 999 ≤ s.msPhase) : idle s = s := by
  unfold idle
  refine if_neg fun ⟨hlow, hphase⟩ => ?_
  rcases h with h | h
  · simp [h] at hlow
  · simp only [Config.msPerSecond] at hphase
    omega

theorem idle_eq_tick {s : State} (hlow : s.rstLow = false) (hphase : s.msPhase < 999) :
    idle s = { advanceMs 1 s with msPhase := s.msPhase + 1 } := by
  refine if_pos ⟨hlow, ?_⟩
  simp only [Config.msPerSecond]
  omega

theorem step_empty {s : State} (h : s.pending = []) : step s = .next (idle s) := by
  simp [step, h]

/-- Settles O2: an idle step is the tick of `advanceMs`, or nothing where `idle` makes none. -/
theorem idleStepIsOneMillisecond : Obligations.IdleStepIsOneMillisecond := by
  unfold Obligations.IdleStepIsOneMillisecond
  intro s hs
  refine ⟨fun h => ?_, fun hlow hphase => ⟨idle s, step_empty hs, fun c => ?_, ?_⟩⟩
  · rw [step_empty hs, idle_eq_self h]
  · rw [idle_eq_tick hlow hphase]
    exact advanceMs_position 1 c
  · rw [idle_eq_tick hlow hphase]
    rfl

/-! ### The timers of a move (R105, R107, R108, R111) -/

section
variable {s : State} {c : Channel} {m : Move}

theorem moveTimerExpiry_still (h : (s.position c).move = none) : moveTimerExpiry c s = s := by
  simp [moveTimerExpiry, h]

theorem moveTimerExpiry_running (h : (s.position c).move = some m) (ht : m.timer ≠ 0) : moveTimerExpiry c s = s := by
  simp [moveTimerExpiry, h, ht]

theorem moveTimerExpiry_due (h : (s.position c).move = some m) (ht : m.timer = 0) :
    moveTimerExpiry c s = moveTimeout m c s := by
  simp [moveTimerExpiry, h, ht]

theorem moveTimeout_closing (h : m.kind = .toClosed ∨ m.kind = .homing) :
    moveTimeout m c s = faultStop runArbiter true c .noClosedLimit s := by
  rcases h with h | h <;> simp [moveTimeout, h]

theorem moveTimeout_toOpen (h : m.kind = .toOpen) :
    moveTimeout m c s = faultStop runArbiter true c .noOpenLimit s := by
  simp [moveTimeout, h]

theorem moveTimeout_bothLimits (h : m.kind = .intermediate) (ho : s.olimActive c = true) (hc : s.climActive c = true) :
    moveTimeout m c s = faultStop runArbiter true c .bothLimits s := by
  simp [moveTimeout, h, ho, hc]

theorem moveTimeout_stuck (h : m.kind = .intermediate) (ho : s.olimActive c = false) (hc : s.climActive c = true)
    (hk : m.check ≠ none) : moveTimeout m c s = faultStop runArbiter true c .stuck s := by
  simp [moveTimeout, h, ho, hc, Option.isSome_iff_ne_none, hk]

theorem moveTimeout_completes {t : Nat} (h : m.kind = .intermediate)
    (hl : s.climActive c = false ∨ (s.olimActive c = false ∧ m.check = none)) (ht : (s.position c).target = some t) :
    moveTimeout m c s = completeMove runArbiter m t (s.position c).known c s := by
  rcases hl with hc | ⟨ho, hk⟩
  · simp [moveTimeout, h, hc, ht]
  · simp [moveTimeout, h, ho, hk, ht]

theorem checkTimerExpiry_still (h : (s.position c).move = none) : checkTimerExpiry c s = s := by
  simp [checkTimerExpiry, h]

theorem checkTimerExpiry_running (h : (s.position c).move = some m) (hk : m.check ≠ some 0) :
    checkTimerExpiry c s = s := by
  simp [checkTimerExpiry, h, timerDue, hk]

theorem checkTimerExpiry_stuck (h : (s.position c).move = some m) (hk : m.check = some 0) (hc : s.climActive c = true) :
    checkTimerExpiry c s = faultStop runArbiter true c .stuck s := by
  simp [checkTimerExpiry, h, timerDue, hk, hc]

theorem checkTimerExpiry_clear (h : (s.position c).move = some m) (hk : m.check = some 0) (hc : s.climActive c = false) :
    checkTimerExpiry c s = s.setPosition c { s.position c with move := some { m with check := none } } := by
  simp [checkTimerExpiry, h, timerDue, hk, hc, State.modifyPosition]

theorem queuedTier_isSome : (s.queuedTier c).isSome = true ↔ c ∈ s.drive.closing ∨ c ∈ s.drive.opening := by
  unfold State.queuedTier
  by_cases hcl : c ∈ s.drive.closing <;> by_cases hop : c ∈ s.drive.opening <;> simp [hcl, hop]

theorem pauseTimerExpiry_running (h : (s.position c).pause ≠ some 0) : pauseTimerExpiry c s = s := by
  simp [pauseTimerExpiry, timerDue, h]

theorem pauseTimerExpiry_due (h : (s.position c).pause = some 0) : pauseTimerExpiry c s =
    if c ∈ s.drive.closing ∨ c ∈ s.drive.opening then
      runArbiter (s.setPosition c { s.position c with pause := none })
    else s.setPosition c { s.position c with pause := none } := by
  simp only [pauseTimerExpiry, timerDue, h, beq_self_eq_true, if_true, queuedTier_isSome]
  rfl

end

/-- Settles O43: each case is the branch of the expiry that its hypotheses name. -/
theorem motionTimersExpire : Obligations.MotionTimersExpire := by
  unfold Obligations.MotionTimersExpire
  intro s c hlow
  have hexecMove : exec (.moveTimerExpiry c) s = .next (moveTimerExpiry c s) := running_next _ s hlow
  have hexecCheck : exec (.checkTimerExpiry c) s = .next (checkTimerExpiry c s) := running_next _ s hlow
  have hexecPause : exec (.pauseTimerExpiry c) s = .next (pauseTimerExpiry c s) := running_next _ s hlow
  rw [hexecMove, hexecCheck, hexecPause]
  refine ⟨fun hstill => ?_, fun m hm => ⟨fun ht => ?_, fun ht hk => ?_, fun ht hk => ?_, fun ht hk =>
    ⟨fun ho hc => ?_, fun ho hc hcheck => ?_, fun t hl htarget => ?_⟩, fun hcheck => ?_, fun hcheck hc => ?_,
    fun hcheck hc => ?_⟩, fun hpause => ?_, fun hpause => ⟨_, rfl, ?_⟩⟩
  · rw [moveTimerExpiry_still hstill, checkTimerExpiry_still hstill]
    exact ⟨rfl, rfl⟩
  · rw [moveTimerExpiry_running hm ht]
  · rw [moveTimerExpiry_due hm ht, moveTimeout_closing hk]
  · rw [moveTimerExpiry_due hm ht, moveTimeout_toOpen hk]
  · rw [moveTimerExpiry_due hm ht, moveTimeout_bothLimits hk ho hc]
  · rw [moveTimerExpiry_due hm ht, moveTimeout_stuck hk ho hc hcheck]
  · rw [moveTimerExpiry_due hm ht, moveTimeout_completes hk hl htarget]
  · rw [checkTimerExpiry_running hm hcheck]
  · rw [checkTimerExpiry_stuck hm hcheck hc]
  · rw [checkTimerExpiry_clear hm hcheck hc]
  · rw [pauseTimerExpiry_running hpause]
  · rw [pauseTimerExpiry_due hpause]

/-! ### Limit events (R105, R106, R122) -/

section
variable {s : State} {c : Channel} {line : LimitLine} {active : Bool} {m : Move}

theorem limitLevel_eq {b : Bool} (hclim : line = .clim → s.climActive c = b) (holim : line = .olim → s.olimActive c = b) :
    limitLevel c line s = b := by
  cases line with
  | clim => exact hclim rfl
  | olim => exact holim rfl

@[simp] theorem setLimit_position (d : Channel) : (setLimit c line active s).position d = s.position d := by
  cases line <;> rfl

@[simp] theorem setLimit_outlet (d : Channel) : (setLimit c line active s).outlet d = s.outlet d := by
  cases line <;> rfl

@[simp] theorem setLimit_handedOff (d : Channel) : (setLimit c line active s).handedOff d = s.handedOff d := by
  cases line <;> rfl

theorem limitEvent_unchanged (h : limitLevel c line s = active) : limitEvent c line active s = s := by
  simp [limitEvent, h]

theorem limitEvent_moving (hlow : s.rstLow = false) (h : limitLevel c line s = !active)
    (hm : (s.position c).move = some m) :
    limitEvent c line active s = limitDuringMove m line active c (setLimit c line active s) := by
  simp [limitEvent, h, hlow, hm]

theorem limitEvent_still (hlow : s.rstLow = false) (h : limitLevel c line s = !active)
    (hm : (s.position c).move = none) :
    limitEvent c line active s = limitAtStill c (setLimit c line active s) := by
  simp [limitEvent, h, hlow, hm]

theorem limitDuringMove_bothLimits (ho : s.olimActive c = true) (hc : s.climActive c = true) :
    limitDuringMove m line active c s = faultStop runArbiter true c .bothLimits s := by
  simp [limitDuringMove, ho, hc]

/-- With one limit active at most there is no fault. -/
theorem not_both_of_one {a b : Bool} (h : a = false ∨ b = false) : (a && b) = false := by
  rcases h with rfl | rfl <;> simp

theorem limitDuringMove_closed (hl : s.olimActive c = false ∨ s.climActive c = false) (hd : m.dir = .closing) :
    limitDuringMove m .clim true c s = completeMove runArbiter m 0 true c s := by
  simp [limitDuringMove, not_both_of_one hl, hd]

theorem limitDuringMove_opened (hl : s.olimActive c = false ∨ s.climActive c = false) (hd : m.dir = .opening) :
    limitDuringMove m .olim true c s = completeMove runArbiter m 1000 true c s := by
  simp [limitDuringMove, not_both_of_one hl, hd]

theorem limitDuringMove_leavesSeat (hl : s.olimActive c = false ∨ s.climActive c = false) (hd : m.dir = .opening) :
    limitDuringMove m .clim false c s = s.setPosition c { s.position c with move := some { m with check := none } } := by
  simp [limitDuringMove, not_both_of_one hl, hd, State.modifyPosition]

theorem limitDuringMove_noEffect (hl : s.olimActive c = false ∨ s.climActive c = false)
    (h : (m.dir = .closing ∧ line = .olim) ∨ (m.dir = .closing ∧ active = false) ∨
      (m.dir = .opening ∧ line = .clim ∧ active = true) ∨ (m.dir = .opening ∧ line = .olim ∧ active = false)) :
    limitDuringMove m line active c s = s := by
  rcases h with ⟨hd, rfl⟩ | ⟨hd, rfl⟩ | ⟨hd, rfl, rfl⟩ | ⟨hd, rfl, rfl⟩
  · simp [limitDuringMove, not_both_of_one hl, hd]
  · cases line <;> simp [limitDuringMove, not_both_of_one hl, hd]
  · simp [limitDuringMove, not_both_of_one hl, hd]
  · simp [limitDuringMove, not_both_of_one hl, hd]

theorem limitAtStill_absent (h : s.outlet c = none) : limitAtStill c s = s := by
  simp [limitAtStill, h]

theorem limitAtStill_fault {o : Outlet} (h : s.outlet c = some o) (ho : s.olimActive c = true) (hc : s.climActive c = true)
    (hst : o.state ≠ .faulted) (hh : s.handedOff c = false) :
    limitAtStill c s = faultStop runArbiter false c .bothLimits s := by
  simp [limitAtStill, h, ho, hc, hst, hh]

theorem limitAtStill_need {o : Outlet} (h : s.outlet c = some o)
    (hno : s.olimActive c = false ∨ s.climActive c = false ∨ o.state = .faulted ∨ s.handedOff c = true) :
    limitAtStill c s = applyNeed runArbiter c s := by
  rcases hno with hno | hno | hno | hno <;> simp [limitAtStill, h, hno]

end

/-- Settles O44: the changed line is set, and the event is one branch during a move or at a still channel. -/
theorem limitEventsActOnMoves : Obligations.LimitEventsActOnMoves := by
  unfold Obligations.LimitEventsActOnMoves
  intro s c line active hlow
  have hexec : exec (.limitEvent c line active) s = .next (limitEvent c line active s) := rfl
  rw [hexec]
  refine ⟨fun hclim holim => ?_, fun hclim holim => ⟨setLimit c line active s, ?_, ?_, fun m hm =>
    ⟨fun ho hc => ?_, fun hl => ⟨?_, ?_, ?_, ?_⟩⟩, fun hstill => ⟨fun hnone => ?_, fun o ho => ⟨?_, ?_⟩⟩⟩⟩
  · rw [limitEvent_unchanged (limitLevel_eq hclim holim)]
  · rintro rfl
    rfl
  · rintro rfl
    rfl
  · rw [limitEvent_moving hlow (limitLevel_eq hclim holim) hm, limitDuringMove_bothLimits ho hc]
  · rintro hdir rfl rfl
    rw [limitEvent_moving hlow (limitLevel_eq hclim holim) hm, limitDuringMove_closed hl hdir]
  · rintro hdir rfl rfl
    rw [limitEvent_moving hlow (limitLevel_eq hclim holim) hm, limitDuringMove_opened hl hdir]
  · rintro hdir rfl rfl
    rw [limitEvent_moving hlow (limitLevel_eq hclim holim) hm, limitDuringMove_leavesSeat hl hdir, setLimit_position]
  · intro hcase
    rw [limitEvent_moving hlow (limitLevel_eq hclim holim) hm, limitDuringMove_noEffect hl hcase]
  · rw [limitEvent_still hlow (limitLevel_eq hclim holim) hstill, limitAtStill_absent (by rw [setLimit_outlet]; exact hnone)]
  · intro hol hcl hst hh
    rw [limitEvent_still hlow (limitLevel_eq hclim holim) hstill,
      limitAtStill_fault (by rw [setLimit_outlet]; exact ho) hol hcl hst (by rw [setLimit_handedOff]; exact hh)]
  · intro hno
    rw [limitEvent_still hlow (limitLevel_eq hclim holim) hstill,
      limitAtStill_need (by rw [setLimit_outlet]; exact ho) (by rw [setLimit_handedOff]; exact hno)]

end Sys2Proof.Machine
end

section
/-! Equations of the Drive Unit's operations, one for each of their cases (R97 to R101). -/

namespace Sys2Proof.Machine

variable {arb : State → State} {s : State} {c : Channel} {d : MoveDir}

/-! ### The motion queue (R100, R101) -/

theorem queuedTier_eq_none : s.queuedTier c = none ↔ c ∉ s.drive.closing ++ s.drive.opening := by
  rw [← Option.not_isSome_iff_eq_none, queuedTier_isSome, List.mem_append]

theorem queuedTier_closing (h : c ∈ s.drive.closing) : s.queuedTier c = some .closing := by
  simp [State.queuedTier, h]

theorem queuedTier_opening (h : c ∉ s.drive.closing) (ho : c ∈ s.drive.opening) : s.queuedTier c = some .opening := by
  simp [State.queuedTier, h, ho]

theorem joinQueue_handedOff (h : s.handedOff c = true) : joinQueue arb d c s = s :=
  if_pos h

theorem joinQueue_joins (h : s.handedOff c = false) : joinQueue arb d c s = arb (addEntry d c s) :=
  if_neg (by simp [h])

theorem applyNeed_idle (hq : s.queuedTier c = none) (hn : moveNeed c s = none) : applyNeed arb c s = s := by
  simp [applyNeed, hq, hn]

theorem applyNeed_joins (hq : s.queuedTier c = none) (hn : moveNeed c s = some d) :
    applyNeed arb c s = joinQueue arb d c s := by
  simp [applyNeed, hq, hn]

theorem applyNeed_leaves (hq : s.queuedTier c ≠ none) (hn : moveNeed c s = none) :
    applyNeed arb c s = removeEntry c s := by
  obtain ⟨q, hq⟩ := Option.ne_none_iff_exists'.1 hq
  simp [applyNeed, hq, hn]

theorem applyNeed_keeps (hq : s.queuedTier c = some d) (hn : moveNeed c s = some d) : applyNeed arb c s = s := by
  simp [applyNeed, hq, hn]

theorem applyNeed_changes {q : MoveDir} (hq : s.queuedTier c = some q) (hn : moveNeed c s = some d) (hne : q ≠ d) :
    applyNeed arb c s = joinQueue arb d c (removeEntry c s) := by
  simp [applyNeed, hq, hn, hne]

/-- Where no need may enter the queue, a decision at an unqueued channel changes nothing (R130). -/
theorem applyNeed_handedOff (hq : s.queuedTier c = none) (hh : s.handedOff c = true) : applyNeed arb c s = s := by
  cases hn : moveNeed c s with
  | none => exact applyNeed_idle hq hn
  | some d => rw [applyNeed_joins hq hn, joinQueue_handedOff hh]

/-! ### Targets (R97, R110) -/

theorem giveTarget_still (t : Nat) (hm : (s.position c).move = none) (hr : (s.position c).homeReq = false) :
    giveTarget c t s = applyNeed runArbiter c (s.setPosition c { s.position c with target := some t }) := by
  simp [giveTarget, hm, hr, State.modifyPosition]

theorem giveTarget_homeReq (t : Nat) (hm : (s.position c).move = none) (hr : (s.position c).homeReq = true) :
    giveTarget c t s = s.setPosition c { s.position c with target := some t } := by
  simp [giveTarget, hm, hr, State.modifyPosition]

theorem giveTarget_stored {t : Nat} {m : Move} (hm : (s.position c).move = some m)
    (h : m.kind = .homing ∨ (s.position c).homeReq = true ∨ (s.position c).target = some t) :
    giveTarget c t s = s.setPosition c { s.position c with target := some t } := by
  simp [giveTarget, hm, h, State.modifyPosition]

theorem giveTarget_retargets {t : Nat} {m : Move} (hm : (s.position c).move = some m) (hk : m.kind ≠ .homing)
    (hr : (s.position c).homeReq = false) (ht : (s.position c).target ≠ some t) :
    giveTarget c t s = retarget m c (s.setPosition c { s.position c with target := some t }) := by
  simp [giveTarget, hm, hk, hr, ht, State.modifyPosition]

/-- In a handed-off bank a still and unqueued channel stores a target alone (R100, R130). -/
theorem giveTarget_handedOff (t : Nat) (hm : (s.position c).move = none) (hh : s.handedOff c = true)
    (hq : c ∉ s.drive.closing ++ s.drive.opening) :
    giveTarget c t s = s.setPosition c { s.position c with target := some t } := by
  cases hr : (s.position c).homeReq with
  | true => exact giveTarget_homeReq t hm hr
  | false => exact (giveTarget_still t hm hr).trans (applyNeed_handedOff (queuedTier_eq_none.2 hq) hh)

end Sys2Proof.Machine
end

section
/-! Which channels an event can move (R97 to R106): an operation at a channel writes that channel's records and its entry, and the
arbiter writes those of the entries it may grant. What such an event leaves is stated once, of every operation of the Drive Unit. -/

namespace Sys2Proof.Machine

/-! ### The entry the arbiter reaches -/

theorem grantable_of_nextEntry {s : State} {d : MoveDir} {c : Channel} (h : nextEntry s = some (d, c)) :
    grantable s c = true := by
  unfold nextEntry at h
  split at h
  · next hf =>
    cases h
    exact List.find?_some hf
  · obtain ⟨c', hf, hc'⟩ := Option.map_eq_some_iff.1 h
    cases hc'
    exact List.find?_some hf

theorem bho_of_grantable {s : State} {c : Channel} (h : grantable s c = true) : s.handoff.bho.get (bankOf c) = false := by
  simp only [grantable, Bool.and_eq_true, Bool.not_eq_true'] at h
  exact h.2

/-! ### The invariant -/

/-- The state `s` within an event that has come from `b` by writes to the records and entries of the channels of `A` alone. -/
structure State.motionFrom (b : State) (A : Set Channel) (s : State) : Prop where
  handoff : s.handoff = b.handoff
  queue : ∀ c ∉ A, c ∈ s.drive.closing ++ s.drive.opening → c ∈ b.drive.closing ++ b.drive.opening
  position : ∀ c ∉ A, s.position c = b.position c
  outlet : ∀ c ∉ A, s.outlet c = b.outlet c

/-- The set holds every entry that the arbiter may come to grant: one whose bank's hand-off input is not asserted (R102). -/
def State.holdsGrantees (b : State) (A : Set Channel) : Prop :=
  ∀ c ∈ b.drive.closing ++ b.drive.opening, b.handoff.bho.get (bankOf c) = false → c ∈ A

namespace State.motionFrom

variable {b s t : State} {A : Set Channel} {c : Channel}

theorem refl (b : State) (A : Set Channel) : State.motionFrom b A b :=
  ⟨rfl, fun _ _ h => h, fun _ _ => rfl, fun _ _ => rfl⟩

theorem trans (h : State.motionFrom b A s) (h' : State.motionFrom s A t) : State.motionFrom b A t :=
  ⟨h'.handoff.trans h.handoff, fun c hc hq => h.queue c hc (h'.queue c hc hq),
    fun c hc => (h'.position c hc).trans (h.position c hc), fun c hc => (h'.outlet c hc).trans (h.outlet c hc)⟩

/-! ### The updates that keep it -/

theorem congr (h : State.motionFrom b A s) (hd : t.drive = s.drive) (ho : t.outlets = s.outlets)
    (hh : t.handoff = s.handoff) : State.motionFrom b A t where
  handoff := hh.trans h.handoff
  queue := by rw [hd]; exact h.queue
  position := by simpa only [State.position, hd] using h.position
  outlet := by simpa only [State.outlet, ho] using h.outlet

theorem modifyPosition (h : State.motionFrom b A s) (hc : c ∈ A) (f : Position → Position) :
    State.motionFrom b A (s.modifyPosition c f) where
  __ := h
  position d hd := by
    rw [State.position_modifyPosition, if_neg fun (e : c = d) => hd (e ▸ hc)]
    exact h.position d hd

theorem setOutlet (h : State.motionFrom b A s) (hc : c ∈ A) (x : Option Outlet) :
    State.motionFrom b A (s.setOutlet c x) where
  __ := h
  outlet d hd := by
    rw [State.outlet_setOutlet, if_neg fun (e : c = d) => hd (e ▸ hc)]
    exact h.outlet d hd

theorem modifyOutlet (h : State.motionFrom b A s) (hc : c ∈ A) (f : Outlet → Outlet) :
    State.motionFrom b A (s.modifyOutlet c f) :=
  h.setOutlet hc _

theorem addEntry (h : State.motionFrom b A s) (d : MoveDir) (hc : c ∈ A) :
    State.motionFrom b A (Machine.addEntry d c s) where
  handoff := (addEntry_handoff ..).trans h.handoff
  position := by simpa using h.position
  outlet := by simpa using h.outlet
  queue x hx hq := by
    have hne : x ≠ c := fun e => hx (e ▸ hc)
    refine h.queue x hx ?_
    cases d
    · simpa [Machine.addEntry, hne] using hq
    · simpa [Machine.addEntry, hne] using hq

theorem removeEntry (h : State.motionFrom b A s) (c : Channel) : State.motionFrom b A (Machine.removeEntry c s) where
  __ := h
  queue x hx hq := by
    refine h.queue x hx ?_
    rw [List.mem_append] at hq ⊢
    exact hq.imp (fun ha => (List.mem_filter.1 ha).1) fun ha => (List.mem_filter.1 ha).1

theorem raise (h : State.motionFrom b A s) (k : NoticeKind) : State.motionFrom b A (Machine.raise k s) :=
  h.congr (raise_drive ..) (raise_outlets ..) (raise_handoff ..)

theorem failStepsOn (h : State.motionFrom b A s) (c : Channel) (why : FailReason) :
    State.motionFrom b A (Machine.failStepsOn c why s) := by
  obtain ⟨-, -, houtlets, -, -, -, -, hdrive, hhandoff, -⟩ := failStepsOn_frame c why s
  exact h.congr hdrive houtlets hhandoff

/-! ### The operations of the Drive Unit -/

variable {arb : State → State} (ha : ∀ s, State.motionFrom b A s → State.motionFrom b A (arb s))
include ha

theorem joinQueue (h : State.motionFrom b A s) (d : MoveDir) (hc : c ∈ A) :
    State.motionFrom b A (Machine.joinQueue arb d c s) := by
  unfold Machine.joinQueue
  split
  · exact h
  · exact ha _ (h.addEntry d hc)

theorem applyNeed (h : State.motionFrom b A s) (hc : c ∈ A) : State.motionFrom b A (Machine.applyNeed arb c s) := by
  unfold Machine.applyNeed
  split
  · exact h
  · exact joinQueue ha h _ hc
  · exact h.removeEntry c
  · split
    · exact h
    · exact joinQueue ha (h.removeEntry c) _ hc

theorem reverseMove (h : State.motionFrom b A s) (d : MoveDir) (hc : c ∈ A) :
    State.motionFrom b A (Machine.reverseMove arb d c s) :=
  joinQueue ha ((ha _ (h.modifyPosition hc _)).modifyPosition hc _) d hc

omit ha in
theorem renewMove (h : State.motionFrom b A s) (hc : c ∈ A) : State.motionFrom b A (Machine.renewMove c s) :=
  h.modifyPosition hc _

theorem homingRequest (h : State.motionFrom b A s) (hc : c ∈ A) :
    State.motionFrom b A (Machine.homingRequest arb c s) := by
  have h₁ := h.modifyPosition hc fun p => { p with homeReq := true }
  unfold Machine.homingRequest
  simp only
  split
  · split
    · exact joinQueue ha h₁ _ hc
    · exact h₁
    · exact joinQueue ha (h₁.removeEntry c) _ hc
  · split
    · exact h₁
    · split
      · exact (h₁.modifyPosition hc _).renewMove hc
      · exact reverseMove ha (h₁.modifyPosition hc _) _ hc

theorem faultReport (h : State.motionFrom b A s) (hc : c ∈ A) (k : FaultKind) :
    State.motionFrom b A (Machine.faultReport arb c k s) := by
  unfold Machine.faultReport
  split
  · exact h
  · next o _ =>
    have h₁ := ((h.modifyPosition hc fun p => { p with known := false }).setOutlet hc
      (some { o with lastFault := some k })).raise .travel
    have hleaves : State.motionFrom b A
        (if o.fixed.autoRecover = true ∧ k ≠ .bothLimits then
          Machine.homingRequest arb c ((Machine.raise .travel ((s.modifyPosition c fun p => { p with known := false }).setOutlet c
            (some { o with lastFault := some k }))).modifyOutlet c fun o => { leaveEligible .homing o with recovery := true })
        else Machine.failStepsOn c .travel ((Machine.raise .travel ((s.modifyPosition c fun p =>
          { p with known := false }).setOutlet c (some { o with lastFault := some k }))).modifyOutlet c
            (leaveEligible .faulted))) := by
      split
      · exact homingRequest ha (h₁.modifyOutlet hc _) hc
      · exact (h₁.modifyOutlet hc _).failStepsOn ..
    simp only
    split
    · exact hleaves
    · exact hleaves
    · exact hleaves
    · exact (h₁.modifyOutlet hc _).failStepsOn ..
    · exact (h₁.modifyOutlet hc _).failStepsOn ..
    · exact h
    · exact h

theorem faultStop (h : State.motionFrom b A s) (hc : c ∈ A) (held : Bool) (k : FaultKind) :
    State.motionFrom b A (Machine.faultStop arb held c k s) := by
  have h₁ := (h.modifyPosition hc (faultPosition (s.olimActive c) (s.climActive c))).removeEntry c
  unfold Machine.faultStop
  refine faultReport ha ?_ hc k
  split
  · exact ha _ h₁
  · exact h₁

omit ha in
theorem homingDone (h : State.motionFrom b A s) (hc : c ∈ A) : State.motionFrom b A (Machine.homingDone c s) :=
  h.modifyOutlet hc _

theorem completeMove (h : State.motionFrom b A s) (hc : c ∈ A) (m : Move) (est : Nat) (known : Bool) :
    State.motionFrom b A (Machine.completeMove arb m est known c s) := by
  have h₁ := ha _ (h.modifyPosition hc (completedPosition m est known))
  have h₂ : State.motionFrom b A (if m.kind = .homing then
      Machine.homingDone c (arb (s.modifyPosition c (completedPosition m est known)))
      else arb (s.modifyPosition c (completedPosition m est known))) := by
    split
    · exact h₁.homingDone hc
    · exact h₁
  unfold Machine.completeMove
  simp only
  split
  · exact h₂
  · split
    · exact joinQueue ha h₂ _ hc
    · exact joinQueue ha (h₂.modifyPosition hc _) _ hc

theorem startMove (h : State.motionFrom b A s) (d : MoveDir) (hc : c ∈ A) :
    State.motionFrom b A (Machine.startMove arb d c s) := by
  unfold Machine.startMove
  simp only
  split
  · exact faultStop ha h hc _ _
  · split
    · exact completeMove ha h hc _ _ _
    · exact h.modifyPosition hc _

omit ha in
theorem arbiter (hA : b.holdsGrantees A) (n : Nat) (s : State) (h : State.motionFrom b A s) :
    State.motionFrom b A (Machine.arbiter n s) := by
  induction n generalizing s with
  | zero => exact h
  | succ n ih =>
    unfold Machine.arbiter
    split
    · split
      · exact h
      · next d c hn =>
        have hc : c ∈ A := by
          by_contra hc
          have hbho := bho_of_grantable (grantable_of_nextEntry hn)
          rw [h.handoff] at hbho
          exact hc (hA c (h.queue c hc (State.grantsFrom.mem_of_nextEntry hn)) hbho)
        exact ih _ (startMove ih (h.removeEntry _) _ hc)
    · exact h

omit ha in
theorem runArbiter (hA : b.holdsGrantees A) (s : State) (h : State.motionFrom b A s) :
    State.motionFrom b A (Machine.runArbiter s) :=
  arbiter hA _ s h

omit ha in
theorem retarget (hA : b.holdsGrantees A) (h : State.motionFrom b A s) (m : Move) (hc : c ∈ A) :
    State.motionFrom b A (Machine.retarget m c s) := by
  have h₁ := h.modifyPosition hc estimateLeg
  unfold Machine.retarget
  simp only
  split
  · exact runArbiter hA _ (h₁.modifyPosition hc _)
  · split
    · exact h₁.renewMove hc
    · exact reverseMove (runArbiter hA) h₁ _ hc

omit ha in
theorem giveTarget (hA : b.holdsGrantees A) (h : State.motionFrom b A s) (t : Nat) (hc : c ∈ A) :
    State.motionFrom b A (Machine.giveTarget c t s) := by
  have h₁ := h.modifyPosition hc fun p => { p with target := some t }
  unfold Machine.giveTarget
  simp only
  split
  · split
    · exact h₁
    · exact retarget hA h₁ _ hc
  · split
    · exact h₁
    · exact applyNeed (runArbiter hA) h₁ hc

omit ha in
theorem requestHoming (hA : b.holdsGrantees A) (h : State.motionFrom b A s) (hc : c ∈ A) :
    State.motionFrom b A (Machine.requestHoming c s) :=
  homingRequest (runArbiter hA) h hc

omit ha in
theorem stopChannel (hA : b.holdsGrantees A) (h : State.motionFrom b A s) (hc : c ∈ A) :
    State.motionFrom b A (Machine.stopChannel c s) := by
  have h₁ := (h.modifyPosition hc fun p =>
    { estimateLeg p with move := none, pause := none, homeReq := false, target := none }).removeEntry c
  unfold Machine.stopChannel
  simp only
  split
  · exact runArbiter hA _ h₁
  · exact h₁

omit ha in
theorem moveTimerExpiry (hA : b.holdsGrantees A) (h : State.motionFrom b A s) (hc : c ∈ A) :
    State.motionFrom b A (Machine.moveTimerExpiry c s) := by
  unfold Machine.moveTimerExpiry
  split
  · exact h
  · split
    · unfold moveTimeout
      split
      · exact faultStop (runArbiter hA) h hc _ _
      · exact faultStop (runArbiter hA) h hc _ _
      · exact faultStop (runArbiter hA) h hc _ _
      · split
        · exact faultStop (runArbiter hA) h hc _ _
        · split
          · exact faultStop (runArbiter hA) h hc _ _
          · exact completeMove (runArbiter hA) h hc _ _ _
    · exact h

omit ha in
theorem checkTimerExpiry (hA : b.holdsGrantees A) (h : State.motionFrom b A s) (hc : c ∈ A) :
    State.motionFrom b A (Machine.checkTimerExpiry c s) := by
  unfold Machine.checkTimerExpiry
  split
  · exact h
  · split
    · split
      · exact faultStop (runArbiter hA) h hc _ _
      · exact h.modifyPosition hc _
    · exact h

omit ha in
theorem pauseTimerExpiry (hA : b.holdsGrantees A) (h : State.motionFrom b A s) (hc : c ∈ A) :
    State.motionFrom b A (Machine.pauseTimerExpiry c s) := by
  have h₁ := h.modifyPosition hc fun p => { p with pause := none }
  unfold Machine.pauseTimerExpiry
  split
  · simp only
    split
    · exact runArbiter hA _ h₁
    · exact h₁
  · exact h

omit ha in
theorem limitDuringMove (hA : b.holdsGrantees A) (h : State.motionFrom b A s) (m : Move) (line : LimitLine) (active : Bool)
    (hc : c ∈ A) : State.motionFrom b A (Machine.limitDuringMove m line active c s) := by
  unfold Machine.limitDuringMove
  split
  · exact faultStop (runArbiter hA) h hc _ _
  · split
    · exact completeMove (runArbiter hA) h hc _ _ _
    · exact completeMove (runArbiter hA) h hc _ _ _
    · exact h.modifyPosition hc _
    all_goals exact h

omit ha in
theorem limitAtStill (hA : b.holdsGrantees A) (h : State.motionFrom b A s) (hc : c ∈ A) :
    State.motionFrom b A (Machine.limitAtStill c s) := by
  unfold Machine.limitAtStill
  split
  · exact h
  · split
    · exact faultStop (runArbiter hA) h hc _ _
    · exact applyNeed (runArbiter hA) h hc

end State.motionFrom

/-- The arbiter leaves the records of a channel without an entry, and gives it none. -/
theorem arbiter_apart (n : Nat) {s : State} {c : Channel} (hc : c ∉ s.drive.closing ++ s.drive.opening) :
    (arbiter n s).position c = s.position c ∧ c ∉ (arbiter n s).drive.closing ++ (arbiter n s).drive.opening := by
  have h := State.motionFrom.arbiter (b := s) (A := { x | x ∈ s.drive.closing ++ s.drive.opening })
    (fun x hx _ => hx) n s (State.motionFrom.refl s _)
  exact ⟨h.position c hc, fun hq => hc (h.queue c hc hq)⟩

end Sys2Proof.Machine
end

section
/-! The motion queue holds each channel once and none that drives (R100): every operation of the Drive Unit keeps that. A channel that an
operation has stilled and taken from the queue stays so while the arbiter runs, and may then join. -/

namespace Sys2Proof.Machine

/-! ### The invariant and one record -/

namespace State.queueRight

variable {s t : State} {c : Channel}

theorem congr (h : s.queueRight) (hd : t.drive = s.drive) : t.queueRight := by
  simpa only [State.queueRight, State.position, hd] using h

/-- A driving channel has no entry. -/
theorem not_queued (h : s.queueRight) {m : Move} (hm : (s.position c).move = some m) :
    c ∉ s.drive.closing ++ s.drive.opening := by
  intro hc
  rw [h.2 c hc] at hm
  cases hm

theorem modifyPosition (h : s.queueRight) {f : Position → Position}
    (hf : c ∈ s.drive.closing ++ s.drive.opening → (f (s.position c)).move = none) : (s.modifyPosition c f).queueRight := by
  refine ⟨h.1, fun x hx => ?_⟩
  rw [State.position_modifyPosition]
  split
  · next e => subst e; exact hf hx
  · exact h.2 x hx

/-- A write that leaves the move of the channel. -/
theorem modifyPosition_still (h : s.queueRight) {f : Position → Position} (hf : (f (s.position c)).move = (s.position c).move) :
    (s.modifyPosition c f).queueRight :=
  h.modifyPosition fun hc => hf.trans (h.2 c hc)

end State.queueRight

/-- The arbiter keeps the queue right, and leaves channels without an entry alone. -/
structure KeepsQueue (arb : State → State) : Prop where
  right : ∀ s : State, s.queueRight → (arb s).queueRight
  apart : ∀ (s : State) (c : Channel), c ∉ s.drive.closing ++ s.drive.opening →
    (arb s).position c = s.position c ∧ c ∉ (arb s).drive.closing ++ (arb s).drive.opening

/-! ### The operations of the Drive Unit -/

namespace KeepsQueue

variable {arb : State → State} (ha : KeepsQueue arb) {s : State} {c : Channel}
include ha

theorem joinQueue (h : s.queueRight) (d : MoveDir) (hc : c ∉ s.drive.closing ++ s.drive.opening)
    (hm : (s.position c).move = none) : (Machine.joinQueue arb d c s).queueRight := by
  unfold Machine.joinQueue
  split
  · exact h
  · exact ha.right _ (addEntry_queueRight d h hc hm)

theorem applyNeed (h : s.queueRight) (hm : (s.position c).move = none) : (Machine.applyNeed arb c s).queueRight := by
  have hrejoin (d : MoveDir) : (Machine.joinQueue arb d c (removeEntry c s)).queueRight :=
    ha.joinQueue (removeEntry_queueRight c h) d (not_mem_removeEntry c) hm
  unfold Machine.applyNeed
  split
  · exact h
  · next hq _ => exact ha.joinQueue h _ (queuedTier_eq_none.1 hq) hm
  · exact removeEntry_queueRight c h
  · split
    · exact h
    · exact hrejoin _

/-- A channel stilled and not queued joins behind a run of the arbiter, which leaves it so. -/
theorem joinBehind (h : s.queueRight) (d : MoveDir) (hc : c ∉ s.drive.closing ++ s.drive.opening) {f g : Position → Position}
    (hf : (f (s.position c)).move = none) (hg : ∀ p, (g p).move = p.move) :
    (Machine.joinQueue arb d c ((arb (s.modifyPosition c f)).modifyPosition c g)).queueRight := by
  have h₁ : (s.modifyPosition c f).queueRight := h.modifyPosition fun _ => hf
  obtain ⟨hpos, hq⟩ := ha.apart (s.modifyPosition c f) c hc
  refine ha.joinQueue ((ha.right _ h₁).modifyPosition_still (hg _)) d hq ?_
  rw [State.position_modifyPosition, if_pos rfl, hg, hpos, State.position_modifyPosition, if_pos rfl, hf]

theorem reverseMove (h : s.queueRight) (d : MoveDir) (hc : c ∉ s.drive.closing ++ s.drive.opening) :
    (Machine.reverseMove arb d c s).queueRight :=
  ha.joinBehind h d hc rfl fun _ => rfl

omit ha in
theorem renewMove (h : s.queueRight) : (Machine.renewMove c s).queueRight := by
  refine h.modifyPosition fun hc => ?_
  simp only [h.2 c hc]

omit ha in
theorem estimateLeg_move_eq_none {p : Position} : (estimateLeg p).move = none ↔ p.move = none := by
  rw [← Option.not_isSome_iff_eq_none, estimateLeg_isSome, Option.not_isSome_iff_eq_none]

omit ha in
theorem estimated (h : s.queueRight) : (s.modifyPosition c estimateLeg).queueRight :=
  h.modifyPosition fun hc => estimateLeg_move_eq_none.2 (h.2 c hc)

theorem homingRequest (h : s.queueRight) : (Machine.homingRequest arb c s).queueRight := by
  have h₁ : (s.modifyPosition c fun p => { p with homeReq := true }).queueRight := h.modifyPosition_still rfl
  unfold Machine.homingRequest
  simp only
  split
  · next hm =>
    split
    · next hq => exact ha.joinQueue h₁ _ (queuedTier_eq_none.1 hq) hm
    · exact h₁
    · exact ha.joinQueue (removeEntry_queueRight c h₁) _ (not_mem_removeEntry c) hm
  · next m hm =>
    split
    · exact h₁
    · split
      · exact renewMove (estimated h₁)
      · exact ha.reverseMove (estimated h₁) _ (h₁.not_queued hm)

omit ha in
theorem raise (h : s.queueRight) (k : NoticeKind) : (Machine.raise k s).queueRight :=
  h.congr (raise_drive ..)

omit ha in
theorem failStepsOn (h : s.queueRight) (why : FailReason) : (Machine.failStepsOn c why s).queueRight := by
  obtain ⟨-, -, -, -, -, -, -, hdrive, -⟩ := failStepsOn_frame c why s
  exact h.congr hdrive

theorem faultReport (h : s.queueRight) (k : FaultKind) : (Machine.faultReport arb c k s).queueRight := by
  unfold Machine.faultReport
  split
  · exact h
  · next o _ =>
    have h₁ (f : Outlet → Outlet) : ((Machine.raise .travel ((s.modifyPosition c fun p => { p with known := false }).setOutlet c
        (some { o with lastFault := some k }))).modifyOutlet c f).queueRight :=
      (h.modifyPosition_still (c := c) (f := fun p => { p with known := false }) rfl).congr (by simp)
    simp only
    split
    iterate 3
      split
      · exact ha.homingRequest (h₁ _)
      · exact failStepsOn (h₁ _) _
    · exact failStepsOn (h₁ _) _
    · exact failStepsOn (h₁ _) _
    · exact h
    · exact h

theorem faultStop (h : s.queueRight) (held : Bool) (k : FaultKind) : (Machine.faultStop arb held c k s).queueRight := by
  have h₁ : (removeEntry c (s.modifyPosition c (faultPosition (s.olimActive c) (s.climActive c)))).queueRight :=
    removeEntry_queueRight c (h.modifyPosition fun _ => rfl)
  unfold Machine.faultStop
  refine ha.faultReport ?_ k
  split
  · exact ha.right _ h₁
  · exact h₁

theorem completeMove (h : s.queueRight) (hc : c ∉ s.drive.closing ++ s.drive.opening) (m : Move) (est : Nat) (known : Bool) :
    (Machine.completeMove arb m est known c s).queueRight := by
  have h₁ : (s.modifyPosition c (completedPosition m est known)).queueRight :=
    h.modifyPosition fun _ => completedPosition_move ..
  obtain ⟨hpos, hq⟩ := ha.apart (s.modifyPosition c (completedPosition m est known)) c hc
  have hm : ((arb (s.modifyPosition c (completedPosition m est known))).position c).move = none := by
    rw [hpos, State.position_modifyPosition, if_pos rfl, completedPosition_move]
  unfold Machine.completeMove
  simp only
  generalize hu : (if m.kind = .homing then Machine.homingDone c (arb (s.modifyPosition c (completedPosition m est known)))
    else arb (s.modifyPosition c (completedPosition m est known))) = u
  have hd : u.drive = (arb (s.modifyPosition c (completedPosition m est known))).drive := by
    rw [← hu]
    split <;> rfl
  have hright : u.queueRight := (ha.right _ h₁).congr hd
  have hmu : (u.position c).move = none := by
    rw [State.position, hd]
    exact hm
  rw [← hd] at hq
  split
  · exact hright
  · split
    · exact ha.joinQueue hright _ hq hmu
    · refine ha.joinQueue (hright.modifyPosition_still rfl) _ hq ?_
      rw [State.position_modifyPosition, if_pos rfl]
      exact hmu

theorem startMove (h : s.queueRight) (d : MoveDir) (hc : c ∉ s.drive.closing ++ s.drive.opening) :
    (Machine.startMove arb d c s).queueRight := by
  unfold Machine.startMove
  simp only
  split
  · exact ha.faultStop h _ _
  · split
    · exact ha.completeMove h hc _ _ _
    · exact h.modifyPosition fun hq => absurd hq hc

omit ha in
theorem arbiter (n : Nat) : KeepsQueue (Machine.arbiter n) where
  right := by
    induction n with
    | zero => exact fun s h => h
    | succ n ih =>
      intro s h
      unfold Machine.arbiter
      split
      · split
        · exact h
        · next d c _ =>
          have hn : KeepsQueue (Machine.arbiter n) := ⟨ih, fun _ _ hx => arbiter_apart n hx⟩
          exact ih _ (hn.startMove (removeEntry_queueRight c h) d (not_mem_removeEntry c))
      · exact h
  apart _ _ hx := arbiter_apart n hx

omit ha in
theorem runArbiter : KeepsQueue Machine.runArbiter where
  right s h := (arbiter _).right s h
  apart s c hc := (arbiter _).apart s c hc

end KeepsQueue

/-! ### The events of the Drive Unit -/

namespace State.queueRight

variable {s : State} (h : s.queueRight) (c : Channel)
include h

theorem retarget {m : Move} (hm : (s.position c).move = some m) : (Machine.retarget m c s).queueRight := by
  have h₁ : (s.modifyPosition c estimateLeg).queueRight := KeepsQueue.estimated h
  unfold Machine.retarget
  simp only
  split
  · exact KeepsQueue.runArbiter.right _ (h₁.modifyPosition fun _ => rfl)
  · split
    · exact KeepsQueue.renewMove h₁
    · exact KeepsQueue.runArbiter.reverseMove h₁ _ (h.not_queued hm)

theorem giveTarget (t : Nat) : (Machine.giveTarget c t s).queueRight := by
  have h₁ : (s.modifyPosition c fun p => { p with target := some t }).queueRight := h.modifyPosition_still rfl
  have hpos : ((s.modifyPosition c fun p => { p with target := some t }).position c).move = (s.position c).move := by
    rw [State.position_modifyPosition, if_pos rfl]
  unfold Machine.giveTarget
  simp only
  split
  · next m hm =>
    split
    · exact h₁
    · exact h₁.retarget c (hpos.trans hm)
  · next hm =>
    split
    · exact h₁
    · exact KeepsQueue.runArbiter.applyNeed h₁ (hpos.trans hm)

theorem requestHoming : (Machine.requestHoming c s).queueRight :=
  KeepsQueue.runArbiter.homingRequest h

theorem stopChannel : (Machine.stopChannel c s).queueRight := by
  have h₁ : (removeEntry c (s.modifyPosition c fun p =>
      { estimateLeg p with move := none, pause := none, homeReq := false, target := none })).queueRight :=
    removeEntry_queueRight c (h.modifyPosition fun _ => rfl)
  unfold Machine.stopChannel
  simp only
  split
  · exact KeepsQueue.runArbiter.right _ h₁
  · exact h₁

theorem moveTimerExpiry : (Machine.moveTimerExpiry c s).queueRight := by
  have hstop (k : FaultKind) : (Machine.faultStop Machine.runArbiter true c k s).queueRight :=
    KeepsQueue.runArbiter.faultStop h true k
  unfold Machine.moveTimerExpiry
  split
  · exact h
  · next m hm =>
    split
    · unfold moveTimeout
      split
      · exact hstop _
      · exact hstop _
      · exact hstop _
      · split
        · exact hstop _
        · split
          · exact hstop _
          · exact KeepsQueue.runArbiter.completeMove h (h.not_queued hm) _ _ _
    · exact h

theorem checkTimerExpiry : (Machine.checkTimerExpiry c s).queueRight := by
  unfold Machine.checkTimerExpiry
  split
  · exact h
  · next m hm =>
    split
    · split
      · exact KeepsQueue.runArbiter.faultStop h true _
      · exact h.modifyPosition fun hq => absurd hq (h.not_queued hm)
    · exact h

theorem pauseTimerExpiry : (Machine.pauseTimerExpiry c s).queueRight := by
  have h₁ : (s.modifyPosition c fun p => { p with pause := none }).queueRight := h.modifyPosition_still rfl
  unfold Machine.pauseTimerExpiry
  split
  · simp only
    split
    · exact KeepsQueue.runArbiter.right _ h₁
    · exact h₁
  · exact h

theorem limitEvent (line : LimitLine) (active : Bool) : (Machine.limitEvent c line active s).queueRight := by
  have h₁ : (setLimit c line active s).queueRight := by cases line <;> exact h
  have hstop (held : Bool) : (Machine.faultStop Machine.runArbiter held c .bothLimits (setLimit c line active s)).queueRight :=
    KeepsQueue.runArbiter.faultStop h₁ held _
  unfold Machine.limitEvent
  simp only
  split
  · exact h
  · split
    · exact h₁
    · split
      · next m hm =>
        have hc := h₁.not_queued hm
        unfold limitDuringMove
        split
        · exact hstop _
        · split
          · exact KeepsQueue.runArbiter.completeMove h₁ hc _ _ _
          · exact KeepsQueue.runArbiter.completeMove h₁ hc _ _ _
          · exact h₁.modifyPosition fun hq => absurd hq hc
          all_goals exact h₁
      · next hm =>
        unfold limitAtStill
        split
        · exact h₁
        · split
          · exact hstop _
          · exact KeepsQueue.runArbiter.applyNeed h₁ hm

end State.queueRight

end Sys2Proof.Machine
end

section
/-! A bank taken into hand-off (R129 to R131): its input asserted, no grant reaches the bank, so each of its channels is left as its own
stop leaves it, and each of its outlets as its own hold does. -/

namespace Sys2Proof.Machine

theorem mem_bankChannels {b : BankId} {c : Channel} : c ∈ bankChannels b ↔ bankOf c = b := by
  simp [bankChannels]

theorem bankChannels_nodup (b : BankId) : (bankChannels b).Nodup :=
  (indices_nodup 48).filter _

/-! ### The channels stop (R130) -/

/-- The position record of a channel of the bank. -/
def Position.released (p : Position) : Position :=
  { estimateLeg p with known := false, target := none, move := none, homeReq := false, pause := none }

/-- A stop and what it lets the arbiter grant, at a channel of a bank whose input is asserted. -/
theorem releaseDrive_bank {b : BankId} {s : State} {c : Channel} (hb : s.handoff.bho.get b = true) (hc : bankOf c = b) :
    (releaseDrive s c).handoff = s.handoff ∧
    (releaseDrive s c).position c = (s.position c).released ∧
    c ∉ (releaseDrive s c).drive.closing ++ (releaseDrive s c).drive.opening ∧
    ∀ d : Channel, bankOf d = b → (releaseDrive s c).outlet d = s.outlet d ∧
      (d ≠ c → (releaseDrive s c).position d = s.position d) ∧
      (d ∈ (releaseDrive s c).drive.closing ++ (releaseDrive s c).drive.opening →
        d ∈ s.drive.closing ++ s.drive.opening) := by
  have hstop : State.motionFrom (removeEntry c (s.modifyPosition c fun p =>
      { estimateLeg p with move := none, pause := none, homeReq := false, target := none }))
      { x | s.handoff.bho.get (bankOf x) = false } (stopChannel c s) := by
    unfold stopChannel
    simp only
    split
    · exact State.motionFrom.runArbiter (fun _ _ h => h) _ (State.motionFrom.refl ..)
    · exact State.motionFrom.refl ..
  have hout {d : Channel} (hd : bankOf d = b) : d ∉ { x | s.handoff.bho.get (bankOf x) = false } := by
    simp [hd, hb]
  refine ⟨hstop.handoff, ?_, fun hq => not_mem_removeEntry c (hstop.queue c (hout hc) hq), fun d hd => ⟨?_, fun hne => ?_, fun hq => ?_⟩⟩
  · rw [releaseDrive, State.position_modifyPosition, if_pos rfl, hstop.position c (hout hc), removeEntry_position,
      State.position_modifyPosition, if_pos rfl]
    rfl
  · exact hstop.outlet d (hout hd)
  · rw [releaseDrive, State.position_modifyPosition, if_neg (Ne.symm hne), hstop.position d (hout hd), removeEntry_position,
      State.position_modifyPosition, if_neg (Ne.symm hne)]
  · have := hstop.queue d (hout hd) hq
    rw [List.mem_append] at this ⊢
    exact this.imp (fun h => (List.mem_filter.1 h).1) fun h => (List.mem_filter.1 h).1

/-- The stops of some channels of the bank, each once. -/
theorem foldl_releaseDrive {b : BankId} {cs : List Channel} (hn : cs.Nodup) (hcs : ∀ c ∈ cs, bankOf c = b) {s : State}
    (hb : s.handoff.bho.get b = true) :
    (cs.foldl releaseDrive s).handoff = s.handoff ∧
    (∀ c ∈ cs, (cs.foldl releaseDrive s).position c = (s.position c).released ∧
      c ∉ (cs.foldl releaseDrive s).drive.closing ++ (cs.foldl releaseDrive s).drive.opening) ∧
    ∀ d : Channel, bankOf d = b → (cs.foldl releaseDrive s).outlet d = s.outlet d ∧
      (d ∉ cs → (cs.foldl releaseDrive s).position d = s.position d) ∧
      (d ∈ (cs.foldl releaseDrive s).drive.closing ++ (cs.foldl releaseDrive s).drive.opening →
        d ∈ s.drive.closing ++ s.drive.opening) := by
  induction cs generalizing s with
  | nil => exact ⟨rfl, by simp, fun _ _ => ⟨rfl, fun _ => rfl, id⟩⟩
  | cons c cs ih =>
    obtain ⟨hcn, hn⟩ := List.nodup_cons.1 hn
    have hc : bankOf c = b := hcs c (by simp)
    obtain ⟨hhand, hpos, hq, hbank⟩ := releaseDrive_bank hb hc
    obtain ⟨ihhand, ihcs, ihbank⟩ := ih hn (fun d hd => hcs d (by simp [hd])) (s := releaseDrive s c) (by rw [hhand, hb])
    rw [List.foldl_cons]
    refine ⟨ihhand.trans hhand, fun d hd => ?_, fun d hd => ⟨?_, fun hdn => ?_, fun hdq => ?_⟩⟩
    · obtain rfl | hd := List.mem_cons.1 hd
      · obtain ⟨-, ihpos, ihq⟩ := ihbank d hc
        exact ⟨(ihpos hcn).trans hpos, fun h => hq (ihq h)⟩
      · have hne : d ≠ c := fun e => hcn (e ▸ hd)
        obtain ⟨-, hposd, -⟩ := hbank d (hcs d (by simp [hd]))
        exact ⟨(ihcs d hd).1.trans (congrArg _ (hposd hne)), (ihcs d hd).2⟩
    · exact (ihbank d hd).1.trans (hbank d hd).1
    · obtain ⟨hne, hdn⟩ := not_or.1 (List.mem_cons.not.1 hdn)
      exact ((ihbank d hd).2.1 hdn).trans ((hbank d hd).2.1 hne)
    · exact (hbank d hd).2.2 ((ihbank d hd).2.2 hdq)

/-! ### The outlets are held (R131) -/

/-- The record of an outlet of the bank, by the table of R131. -/
def heldRecord (o : Outlet) : Outlet :=
  match o.state with
  | .idle | .warming | .serving => leaveEligible .held o
  | .homing | .locked => { o with state := .held }
  | .held | .faulted => o

theorem heldRecord_eligible {o : Outlet} (h : o.state.eligible = true) : heldRecord o = { o with
    state := .held, assumedDraw := o.grant, grant := 0, effDemand := 0, warmTimer := none } := by
  cases hs : o.state <;> simp [hs, OutletState.eligible] at h <;> simp [heldRecord, hs, leaveEligible]

theorem heldRecord_ineligible {o : Outlet} (h : o.state = .homing ∨ o.state = .locked) :
    heldRecord o = { o with state := .held } := by
  rcases h with h | h <;> simp [heldRecord, h]

theorem heldRecord_silent {o : Outlet} (h : o.state = .held ∨ o.state = .faulted) : heldRecord o = o := by
  rcases h with h | h <;> simp [heldRecord, h]

theorem heldRecord_state (o : Outlet) : (heldRecord o).state = .held ∨ (heldRecord o).state = .faulted := by
  cases h : o.state <;> simp [heldRecord, h, leaveEligible]

theorem holdOutlet_absent {s : State} {c : Channel} (ho : s.outlet c = none) : holdOutlet s c = s := by
  simp [holdOutlet, ho]

theorem holdOutlet_silent {s : State} {c : Channel} {o : Outlet} (ho : s.outlet c = some o)
    (hs : o.state = .held ∨ o.state = .faulted) : holdOutlet s c = s := by
  rcases hs with hs | hs <;> simp [holdOutlet, ho, hs]

/-- A hold writes the one outlet record and, behind it, fails the steps on it (R131, R152). -/
theorem holdOutlet_holds {s : State} {c : Channel} {o : Outlet} (ho : s.outlet c = some o)
    (hs : ¬(o.state = .held ∨ o.state = .faulted)) :
    holdOutlet s c = failStepsOn c .handoff (s.setOutlet c (some (heldRecord o))) := by
  cases h : o.state <;> simp [h] at hs <;> simp [holdOutlet, ho, heldRecord, h]

theorem holdOutlet_frame (s : State) (c : Channel) :
    (holdOutlet s c).drive = s.drive ∧ (holdOutlet s c).handoff = s.handoff ∧
    ∀ d : Channel, (holdOutlet s c).outlet d = if c = d then (s.outlet c).map heldRecord else s.outlet d := by
  have unchanged (h : (s.outlet c).map heldRecord = s.outlet c) (d : Channel) :
      s.outlet d = if c = d then (s.outlet c).map heldRecord else s.outlet d := by
    split
    · next e => rw [h, e]
    · rfl
  cases ho : s.outlet c with
  | none =>
    rw [holdOutlet_absent ho, ← ho]
    exact ⟨rfl, rfl, unchanged (by simp [ho])⟩
  | some o =>
    rw [← ho]
    by_cases hs : o.state = .held ∨ o.state = .faulted
    · rw [holdOutlet_silent ho hs]
      exact ⟨rfl, rfl, unchanged (by simp [ho, heldRecord_silent hs])⟩
    · obtain ⟨-, -, houtlets, -, -, -, -, hdrive, hhandoff, -⟩ :=
        failStepsOn_frame c .handoff (s.setOutlet c (some (heldRecord o)))
      rw [holdOutlet_holds ho hs]
      refine ⟨hdrive, hhandoff, fun d => ?_⟩
      rw [State.outlet, houtlets, ho]
      exact State.outlet_setOutlet ..

theorem foldl_holdOutlet {cs : List Channel} (hn : cs.Nodup) (s : State) :
    (cs.foldl holdOutlet s).drive = s.drive ∧ (cs.foldl holdOutlet s).handoff = s.handoff ∧
    ∀ d : Channel, (cs.foldl holdOutlet s).outlet d = if d ∈ cs then (s.outlet d).map heldRecord else s.outlet d := by
  induction cs generalizing s with
  | nil => exact ⟨rfl, rfl, fun _ => rfl⟩
  | cons c cs ih =>
    obtain ⟨hcn, hn⟩ := List.nodup_cons.1 hn
    obtain ⟨hdrive, hhand, hout⟩ := holdOutlet_frame s c
    obtain ⟨ihdrive, ihhand, ihout⟩ := ih hn (holdOutlet s c)
    rw [List.foldl_cons]
    refine ⟨ihdrive.trans hdrive, ihhand.trans hhand, fun d => ?_⟩
    rw [ihout, hout]
    by_cases hd : c = d
    · subst hd; simp [hcn]
    · simp [hd, Ne.symm hd]

/-! ### The bank (R130, R131) -/

/-- The state in which a bank's channels have stopped and its outlets are held, before HANDED_OFF is set. -/
def bankHeld (b : BankId) (s : State) : State :=
  (bankChannels b).foldl holdOutlet ((bankChannels b).foldl releaseDrive s)

theorem takeBank_eq (b : BankId) (s : State) : takeBank b s = raise .handoff (setHandedOff b true (bankHeld b s)) := rfl

theorem bankHeld_handoff {b : BankId} {s : State} (hb : s.handoff.bho.get b = true) : (bankHeld b s).handoff = s.handoff :=
  (foldl_holdOutlet (bankChannels_nodup b) _).2.1.trans
    (foldl_releaseDrive (bankChannels_nodup b) (fun _ => mem_bankChannels.1) hb).1

/-- What a channel of the bank is left with. -/
theorem bankHeld_bank {b : BankId} {s : State} (hb : s.handoff.bho.get b = true) {c : Channel} (hc : bankOf c = b) :
    (bankHeld b s).position c = (s.position c).released ∧
    c ∉ (bankHeld b s).drive.closing ++ (bankHeld b s).drive.opening ∧
    (bankHeld b s).outlet c = (s.outlet c).map heldRecord := by
  obtain ⟨hdrive, -, hout⟩ := foldl_holdOutlet (bankChannels_nodup b) ((bankChannels b).foldl releaseDrive s)
  obtain ⟨-, hstopped, hbank⟩ := foldl_releaseDrive (bankChannels_nodup b) (fun _ => mem_bankChannels.1) hb
  have hmem : c ∈ bankChannels b := mem_bankChannels.2 hc
  obtain ⟨hpos, hq⟩ := hstopped c hmem
  refine ⟨?_, ?_, ?_⟩
  · rw [← hpos, bankHeld, State.position, hdrive]
    rfl
  · rw [bankHeld, hdrive]
    exact hq
  · rw [bankHeld, hout, if_pos hmem, (hbank c hc).1]

end Sys2Proof.Machine
end

section
/-! The three invariants of the Drive Unit (6.1, R100, R102, R130, R132): at most eight channels drive and the position records are in
range, the motion queue is right, and the handed-off banks are right. What they speak of, and that each is kept by the operations
through which a command can bear on it. -/

namespace Sys2Proof.Machine

/-! ### What the invariants speak of -/

/-- The Drive Unit, HANDED_OFF, and the STATE of each outlet. -/
def State.motion (s : State) : Drive × Table Bool 6 × (Channel → Option OutletState) :=
  (s.drive, s.handoff.handedOff, fun c => (s.outlet c).map Outlet.state)

theorem State.motion_eq {s t : State} : t.motion = s.motion ↔ t.drive = s.drive ∧ t.handoff.handedOff = s.handoff.handedOff ∧
    ∀ c, (t.outlet c).map Outlet.state = (s.outlet c).map Outlet.state := by
  simp only [State.motion, Prod.mk.injEq, funext_iff]

/-- HELD or FAULTED, the two STATEs of a present outlet in a handed-off bank (R132). -/
def OutletState.parked (x : OutletState) : Prop :=
  x = .held ∨ x = .faulted

/-- The channel as a hand-off leaves it: still, unqueued, no pause, no homing request, its outlet HELD, FAULTED or absent. -/
def State.parked (s : State) (c : Channel) : Prop :=
  (s.position c).move = none ∧ (s.position c).homeReq = false ∧ (s.position c).pause = none ∧
  c ∉ s.drive.closing ∧ c ∉ s.drive.opening ∧ ∀ o ∈ s.outlet c, o.state = .held ∨ o.state = .faulted

theorem handoffRight_iff (s : State) : s.handoffRight ↔ ∀ c, s.handedOff c = true → s.parked c := Iff.rfl

theorem State.parked_congr {s t : State} {c : Channel} (hp : t.position c = s.position c)
    (hc : c ∈ t.drive.closing ++ t.drive.opening → c ∈ s.drive.closing ++ s.drive.opening)
    (ho : (t.outlet c).map Outlet.state = (s.outlet c).map Outlet.state) (h : s.parked c) : t.parked c := by
  obtain ⟨hm, hr, ht, hcl, hop, hout⟩ := h
  have hq : c ∉ t.drive.closing ++ t.drive.opening := fun hq => by
    rcases List.mem_append.1 (hc hq) with h | h
    · exact hcl h
    · exact hop h
  rw [List.mem_append, not_or] at hq
  refine ⟨hp ▸ hm, hp ▸ hr, hp ▸ ht, hq.1, hq.2, fun o hmem => ?_⟩
  obtain ⟨o', ho', e⟩ : ∃ o', s.outlet c = some o' ∧ o'.state = o.state := by
    rw [Option.mem_def.1 hmem, Option.map_some] at ho
    exact Option.map_eq_some_iff.1 ho.symm
  exact e ▸ hout o' ho'

/-- A property kept by every operation through which a command bears on the Drive Unit, on STATE or on HANDED_OFF. A record written
leaves a parked outlet parked in a handed-off bank; a homing is requested of a HOMING outlet alone; and a bank is handed off with
its channels parked. -/
structure KeptByMotion (P : State → Prop) : Prop where
  congr : ∀ {s t : State}, P s → t.motion = s.motion → P t
  outlet : ∀ {s : State} (c : Channel) (x : Option Outlet),
    (s.handedOff c = true → (∀ o ∈ s.outlet c, o.state.parked) → ∀ o ∈ x, o.state.parked) → P s → P (s.setOutlet c x)
  target : ∀ {s : State} (c : Channel) (t : Nat), t ≤ 1000 → P s → P (giveTarget c t s)
  homing : ∀ {s : State} {c : Channel} {o : Outlet}, s.outlet c = some o → o.state = .homing → P s → P (requestHoming c s)
  stop : ∀ {s : State} (c : Channel), P s → P (stopChannel c s)
  unknown : ∀ {s : State} (c : Channel), P s → P (s.modifyPosition c fun p => { p with known := false })
  moveTimer : ∀ {s : State} (c : Channel), P s → P (moveTimerExpiry c s)
  checkTimer : ∀ {s : State} (c : Channel), P s → P (checkTimerExpiry c s)
  pauseTimer : ∀ {s : State} (c : Channel), P s → P (pauseTimerExpiry c s)
  limit : ∀ {s : State} (c : Channel) (line : LimitLine) (active : Bool), P s → P (limitEvent c line active s)
  handOff : ∀ {s : State} (b : BankId), (∀ c : Channel, bankOf c = b → s.parked c) → P s → P (setHandedOff b true s)
  handBack : ∀ {s : State} (b : BankId), P s → P (setHandedOff b false s)
  advance : ∀ {s : State} (n : Nat), P s → P (advanceMs n s)
  reset : ∀ (speed : LinkSpeed) (bho : Table Bool 6) (olim clim : Table Bool 48) (n : Nat) (pending : List Instr),
    P (afterReset speed bho olim clim n pending)

/-! ### Eight slots, and positions in range (R102, 6.1) -/

/-- At most eight channels drive, and the position records are in range. -/
def State.driveInRange (s : State) : Prop :=
  s.drivesBounded ∧ s.positionsInRange

/-- A write makes one more channel drive at most. -/
theorem slotsHeld_setPosition_le (s : State) (c : Channel) (p : Position) : (s.setPosition c p).slotsHeld ≤ s.slotsHeld + 1 := by
  have hsub : (indices 48).filter (s.setPosition c p).isDriving ⊆ c :: (indices 48).filter s.isDriving := by
    intro d hd
    obtain ⟨hmem, hdrives⟩ := List.mem_filter.1 hd
    by_cases e : c = d
    · simp [e]
    · rw [State.isDriving, State.position_setPosition, if_neg e] at hdrives
      exact List.mem_cons_of_mem _ (List.mem_filter.2 ⟨hmem, hdrives⟩)
  exact (List.subperm_of_subset ((indices_nodup 48).filter _) hsub).length_le

/-- A write to a driving channel, or of a record at rest, makes no further channel drive. -/
theorem slotsHeld_setPosition_mono {s : State} {c : Channel} {p : Position}
    (h : p.move.isSome = true → (s.position c).move.isSome = true) : (s.setPosition c p).slotsHeld ≤ s.slotsHeld := by
  refine (List.monotone_filter_right _ fun d hdrives => ?_).length_le
  rw [State.isDriving, State.position_setPosition] at hdrives
  split at hdrives
  · next e => subst e; exact h hdrives
  · exact hdrives

theorem driveInRange_congr {s t : State} (h : s.driveInRange) (hd : t.drive.positions = s.drive.positions) :
    t.driveInRange := by
  have hdriving : t.isDriving = s.isDriving := by
    funext c
    simp only [State.isDriving, State.position, hd]
  simpa only [State.driveInRange, State.drivesBounded, State.slotsHeld, State.positionsInRange, State.position, hd,
    hdriving] using h

theorem keptByDrive_driveInRange : KeptByDrive State.driveInRange where
  slot _ _ _ _ _ h := h
  claim _ _ _ h := h
  raise s k h := driveInRange_congr h (by rw [raise_drive])
  position s c p hrange hmove h := by
    obtain ⟨hbound, hpos⟩ := h
    refine ⟨?_, fun d => ?_⟩
    · by_cases hp : p.move.isSome = true
      · rcases hmove hp with hm | hfree
        · exact (slotsHeld_setPosition_mono fun _ => hm).trans hbound
        · exact (slotsHeld_setPosition_le s c p).trans (of_decide_eq_true hfree)
      · exact (slotsHeld_setPosition_mono fun h => absurd h hp).trans hbound
    · rw [State.position_setPosition]
      split
      · exact hrange (hpos c)
      · exact hpos d
  queue _ _ _ h := h
  report _ _ _ _ _ _ h := h

theorem advancePosition_inRange {p : Position} (n : Nat) (h : p.inRange) : (advancePosition n p).inRange := h

theorem setLimit_positions (c : Channel) (line : LimitLine) (active : Bool) (s : State) :
    (setLimit c line active s).drive.positions = s.drive.positions := by
  cases line <;> rfl

theorem reset_driveInRange (speed : LinkSpeed) (bho : Table Bool 6) (olim clim : Table Bool 48) (n : Nat)
    (pending : List Instr) : (afterReset speed bho olim clim n pending).driveInRange := by
  have hpos (c : Channel) : (afterReset speed bho olim clim n pending).position c = resetPosition := Table.get_fill _ c
  refine ⟨?_, fun c => ?_⟩
  · have hnone : (indices 48).filter (afterReset speed bho olim clim n pending).isDriving = [] :=
      List.filter_eq_nil_iff.2 fun c _ => by simp [State.isDriving, hpos, resetPosition]
    rw [State.drivesBounded, State.slotsHeld, hnone]
    exact Nat.zero_le _
  · rw [hpos]
    exact ⟨Nat.zero_le _, fun t ht => (Option.some_ne_none t ht.symm).elim, Nat.zero_le _, fun _ => by decide⟩

theorem keptByMotion_driveInRange : KeptByMotion State.driveInRange where
  congr h e := driveInRange_congr h (by rw [(State.motion_eq.1 e).1])
  outlet _ _ _ h := h
  target c _ ht h := keptByDrive_driveInRange.giveTarget c ht h
  homing _ _ h := keptByDrive_driveInRange.requestHoming _ h
  stop c h := keptByDrive_driveInRange.stopChannel c h
  unknown c h := keptByDrive_driveInRange.modifyPosition c _ id .inl h
  moveTimer c h := keptByDrive_driveInRange.moveTimerExpiry c h
  checkTimer c h := keptByDrive_driveInRange.checkTimerExpiry c h
  pauseTimer c h := keptByDrive_driveInRange.pauseTimerExpiry c h
  limit c line active h := by
    have h₁ := driveInRange_congr h (setLimit_positions c line active _)
    have h₂ := keptByDrive_driveInRange.limitTaken c line active h₁
    unfold limitEvent
    simp only
    split
    · exact h
    · split
      · exact h₁
      · exact h₂
  handOff _ _ h := h
  handBack _ h := h
  advance {s} n h := by
    obtain ⟨hbound, hpos⟩ := h
    have hdriving : (advanceMs n s).isDriving = s.isDriving := by
      funext c
      simp [State.isDriving, advancePosition]
    refine ⟨?_, fun c => ?_⟩
    · rw [State.drivesBounded, State.slotsHeld, hdriving]
      exact hbound
    · rw [advanceMs_position]
      exact advancePosition_inRange n (hpos c)
  reset := reset_driveInRange

/-! ### The motion queue (R100) -/

theorem keptByMotion_queueRight : KeptByMotion State.queueRight where
  congr h e := h.congr (State.motion_eq.1 e).1
  outlet _ _ _ h := h
  target c t _ h := h.giveTarget c t
  homing _ _ h := h.requestHoming _
  stop c h := h.stopChannel c
  unknown _ h := h.modifyPosition_still rfl
  moveTimer c h := h.moveTimerExpiry c
  checkTimer c h := h.checkTimerExpiry c
  pauseTimer c h := h.pauseTimerExpiry c
  limit c line active h := h.limitEvent c line active
  handOff _ _ h := h
  handBack _ h := h
  advance n h := ⟨h.1, fun c hc => by
    rw [advanceMs_position, advancePosition, h.2 c hc]
    rfl⟩
  reset _ _ _ _ _ _ := ⟨List.nodup_nil, fun _ hc => absurd hc List.not_mem_nil⟩

/-! ### The handed-off banks (R130, R132) -/

namespace State.handoffRight

variable {s t : State} {c : Channel} (h : s.handoffRight)
include h

theorem not_handedOff_of_queued (hc : c ∈ s.drive.closing ++ s.drive.opening) : s.handedOff c = false := by
  by_contra hh
  obtain ⟨-, -, -, hcl, hop, -⟩ := h c (by simpa using hh)
  rcases List.mem_append.1 hc with hc | hc
  · exact hcl hc
  · exact hop hc

theorem not_handedOff_of_state {o : Outlet} (ho : s.outlet c = some o) (hs : ¬o.state.parked) : s.handedOff c = false := by
  by_contra hh
  obtain ⟨-, -, -, -, -, hout⟩ := h c (by simpa using hh)
  exact hs (hout o ho)

theorem not_handedOff_of_driving {m : Move} (hm : (s.position c).move = some m) : s.handedOff c = false := by
  by_contra hh
  obtain ⟨hstill, -⟩ := h c (by simpa using hh)
  rw [hm] at hstill
  cases hstill

theorem holdsGrantees : s.holdsGrantees { x | s.handedOff x = false } :=
  fun _ hc _ => h.not_handedOff_of_queued hc

/-- An event of channels that are not handed off. -/
theorem of_motionFrom (ht : State.motionFrom s { x | s.handedOff x = false } t) : t.handoffRight := by
  intro d hd
  have hd' : s.handedOff d = true := by rwa [State.handedOff, ht.handoff] at hd
  have hA : d ∉ { x | s.handedOff x = false } := by simp [hd']
  exact State.parked_congr (ht.position d hA) (ht.queue d hA) (by rw [ht.outlet d hA]) (h d hd')

theorem congr (e : t.motion = s.motion) : t.handoffRight := by
  obtain ⟨hdrive, hhand, hout⟩ := State.motion_eq.1 e
  intro d hd
  refine State.parked_congr (by rw [State.position, hdrive]; rfl) (by rw [hdrive]; exact id) (hout d) (h d ?_)
  rwa [State.handedOff, hhand] at hd

/-- A position record written that stays at rest. -/
theorem setPosition {p : Position} (hp : s.handedOff c = true → p.move = none ∧ p.homeReq = false ∧ p.pause = none) :
    (s.setPosition c p).handoffRight := by
  intro d hd
  obtain ⟨hm, hr, ht, hcl, hop, hout⟩ := h d hd
  rw [State.position_setPosition]
  split
  · next e =>
    subst e
    obtain ⟨hm', hr', ht'⟩ := hp hd
    exact ⟨hm', hr', ht', hcl, hop, hout⟩
  · exact ⟨hm, hr, ht, hcl, hop, hout⟩

theorem removeEntry : (Machine.removeEntry c s).handoffRight := by
  intro d hd
  obtain ⟨hm, hr, ht, hcl, hop, hout⟩ := h d hd
  exact ⟨hm, hr, ht, fun hq => hcl (List.mem_filter.1 hq).1, fun hq => hop (List.mem_filter.1 hq).1, hout⟩

end State.handoffRight

theorem keptByMotion_handoffRight : KeptByMotion State.handoffRight where
  congr h e := h.congr e
  outlet {s} c x hx h := by
    intro d hd
    obtain ⟨hm, hr, ht, hcl, hop, hout⟩ := h d hd
    refine ⟨hm, hr, ht, hcl, hop, ?_⟩
    rw [State.outlet_setOutlet]
    split
    · next e => subst e; exact hx hd hout
    · exact hout
  target {s} c t _ h := by
    cases hh : s.handedOff c with
    | false => exact h.of_motionFrom (State.motionFrom.giveTarget h.holdsGrantees (.refl ..) t hh)
    | true =>
      obtain ⟨hm, hr, ht, hcl, hop, -⟩ := h c hh
      rw [giveTarget_handedOff t hm hh (by simp [hcl, hop])]
      exact h.setPosition fun _ => ⟨hm, hr, ht⟩
  homing ho hs h := by
    have hh := h.not_handedOff_of_state ho (by simp [OutletState.parked, hs])
    exact h.of_motionFrom (State.motionFrom.requestHoming h.holdsGrantees (.refl ..) hh)
  stop {s} c h := by
    cases hh : s.handedOff c with
    | false => exact h.of_motionFrom (State.motionFrom.stopChannel h.holdsGrantees (.refl ..) hh)
    | true =>
      obtain ⟨hm, -⟩ := h c hh
      unfold stopChannel
      simp only [hm, Option.isSome_none, Bool.false_eq_true, if_false]
      exact State.handoffRight.removeEntry (h.setPosition fun _ => ⟨rfl, rfl, rfl⟩)
  unknown c h := h.setPosition fun hh => by
    obtain ⟨hm, hr, ht, -⟩ := h c hh
    exact ⟨hm, hr, ht⟩
  moveTimer {s} c h := by
    cases hm : (s.position c).move with
    | none => rwa [moveTimerExpiry_still hm]
    | some m =>
      exact h.of_motionFrom (State.motionFrom.moveTimerExpiry h.holdsGrantees (.refl ..) (h.not_handedOff_of_driving hm))
  checkTimer {s} c h := by
    cases hm : (s.position c).move with
    | none => rwa [checkTimerExpiry_still hm]
    | some m =>
      exact h.of_motionFrom (State.motionFrom.checkTimerExpiry h.holdsGrantees (.refl ..) (h.not_handedOff_of_driving hm))
  pauseTimer {s} c h := by
    cases hh : s.handedOff c with
    | false => exact h.of_motionFrom (State.motionFrom.pauseTimerExpiry h.holdsGrantees (.refl ..) hh)
    | true =>
      obtain ⟨-, -, ht, -⟩ := h c hh
      rwa [pauseTimerExpiry_running (by simp [ht])]
  limit {s} c line active h := by
    have h₁ : (setLimit c line active s).handoffRight := by cases line <;> exact h
    unfold limitEvent
    simp only
    split
    · exact h
    · split
      · exact h₁
      · split
        · next m hm =>
          exact h₁.of_motionFrom
            (State.motionFrom.limitDuringMove h₁.holdsGrantees (.refl ..) m line active (h₁.not_handedOff_of_driving hm))
        · cases hh : (setLimit c line active s).handedOff c with
          | false => exact h₁.of_motionFrom (State.motionFrom.limitAtStill h₁.holdsGrantees (.refl ..) hh)
          | true =>
            obtain ⟨-, -, -, hcl, hop, -⟩ := h₁ c hh
            cases ho : (setLimit c line active s).outlet c with
            | none => rwa [limitAtStill_absent ho]
            | some o =>
              rwa [limitAtStill_need ho (.inr (.inr (.inr hh))),
                applyNeed_handedOff (queuedTier_eq_none.2 (by simp [hcl, hop])) hh]
  handOff {s} b hb h := by
    intro d hd
    by_cases e : b = bankOf d
    · exact hb d e.symm
    · rw [State.handedOff, setHandedOff, Table.get_set_other _ e] at hd
      exact h d hd
  handBack {s} b h := by
    intro d hd
    rw [State.handedOff, setHandedOff, Table.get_set] at hd
    split at hd
    · cases hd
    · exact h d hd
  advance {s} n h := by
    intro d hd
    obtain ⟨hm, hr, ht, hcl, hop, hout⟩ := h d hd
    rw [advanceMs_position]
    exact ⟨by simp [advancePosition, hm], hr, by simp [advancePosition, ht, tickTimer], hcl, hop, hout⟩
  reset speed bho olim clim n pending := by
    intro d _
    have hp : (afterReset speed bho olim clim n pending).position d = resetPosition := Table.get_fill _ d
    have ho : (afterReset speed bho olim clim n pending).outlet d = none := Table.get_fill _ d
    rw [hp, ho]
    exact ⟨rfl, rfl, rfl, List.not_mem_nil, List.not_mem_nil, fun _ h => (Option.some_ne_none _ h.symm).elim⟩

end Sys2Proof.Machine
end

section
/-! Every command, and so every step, keeps a property that the operations of the Drive Unit keep (`KeptByMotion`): most commands leave
all that such a property speaks of, and what is left are those that write STATE, give targets, request homings, or stop channels. -/

namespace Sys2Proof.Machine

/-! ### Updates that leave the Drive Unit, HANDED_OFF and STATE -/

section
variable (s : State)

theorem State.setOutlet_motion {s : State} {c : Channel} {x : Option Outlet}
    (h : x.map Outlet.state = (s.outlet c).map Outlet.state) : (s.setOutlet c x).motion = s.motion := by
  refine State.motion_eq.2 ⟨rfl, rfl, fun d => ?_⟩
  rw [State.outlet_setOutlet]
  split
  · next e => subst e; exact h
  · rfl

theorem State.modifyOutlet_motion (c : Channel) {f : Outlet → Outlet} (hf : ∀ o, (f o).state = o.state) :
    (s.modifyOutlet c f).motion = s.motion :=
  State.setOutlet_motion (by rw [Option.map_map]; exact congrArg (fun g => (s.outlet c).map g) (funext hf))

@[simp] theorem State.setDemand_motion (c : Channel) (d : HostDemand) : (s.setDemand c d).motion = s.motion := rfl
@[simp] theorem State.setSteamPart_motion (x : SteamPart) : (s.setSteamPart x).motion = s.motion := rfl
@[simp] theorem State.setSensor_motion (i : InputId) (x : Sensor) : (s.setSensor i x).motion = s.motion := rfl
@[simp] theorem State.setSlot_motion (i : SlotId) (x : ProgSlot) : (s.setSlot i x).motion = s.motion := rfl
@[simp] theorem State.modifySlot_motion (i : SlotId) (f : ProgSlot → ProgSlot) : (s.modifySlot i f).motion = s.motion := rfl
@[simp] theorem initNeighbours_motion (c : Channel) (n : Nat) : (initNeighbours c n s).motion = s.motion := rfl
@[simp] theorem setBho_motion (b : BankId) (v : Bool) : (setBho b v s).motion = s.motion := rfl

@[simp] theorem State.setPool_motion (p : Pool) (r : PoolRecord) : (s.setPool p r).motion = s.motion := by
  rcases p with _ | _ | _ <;> rfl

@[simp] theorem State.setHwPart_motion (h : HwPool) (x : HwPart) : (s.setHwPart h x).motion = s.motion := by
  cases h <;> rfl

@[simp] theorem raise_motion (k : NoticeKind) : (raise k s).motion = s.motion := by
  simp [State.motion]

theorem keptByDuty_motion : KeptByDuty (fun u => u.motion = s.motion) where
  slot _ _ _ _ _ h := h
  claim _ _ _ h := h
  raise u k h := (raise_motion u k).trans h

@[simp] theorem runDuty_motion (ts : List DutyTask) : (runDuty ts s).motion = s.motion :=
  (keptByDuty_motion s).runDuty ts rfl

@[simp] theorem failStepsOn_motion (c : Channel) (r : FailReason) : (failStepsOn c r s).motion = s.motion :=
  (keptByDuty_motion s).failStepsOn c r rfl

@[simp] theorem releaseStep_motion (i : SlotId) : (releaseStep i s).1.motion = s.motion :=
  (keptByDuty_motion s).releaseStep i rfl

@[simp] theorem beginPass_motion (i : SlotId) (m : Nat) : (beginPass i m s).motion = s.motion :=
  (keptByDuty_motion s).beginPass i m rfl

theorem foldl_motion {α : Type} {f : State → α → State} (hf : ∀ u a, (f u a).motion = u.motion) (as : List α) :
    (as.foldl f s).motion = s.motion :=
  List.foldlRecOn (motive := fun u : State => u.motion = s.motion) as f rfl fun u hu a _ => (hf u a).trans hu

end

/-! ### Commands that leave them -/

section
variable (p : List Byte) (s : State)

theorem receive_motion (bs : List Byte) : (receive bs s).motion = s.motion := by
  refine (foldl_motion _ (fun u f => ?_) _).trans rfl
  unfold handFrame
  split
  · rfl
  · split <;> rfl

theorem frameArrival_motion (bytes : List Byte) : (frameArrival bytes s).motion = s.motion := by
  unfold frameArrival
  split
  · rfl
  · split <;> exact receive_motion ..

theorem gapTimerExpiry_motion : (gapTimerExpiry s).motion = s.motion := by
  unfold gapTimerExpiry
  split
  · rfl
  · split
    · exact receive_motion ..
    · rfl

theorem profileSet_motion : (profileSet p s).2.motion = s.motion := by
  have hwrite {c : Channel} {o : Outlet} (ho : s.outlet c = some o) (bank : ProfileBank) (x : Profile) :
      (s.setOutlet c (some (writeSet bank x o))).motion = s.motion :=
    State.setOutlet_motion (by rw [ho]; cases bank <;> rfl)
  refine atOutlet_keeps (P := fun u => u.motion = s.motion) rfl fun c => ?_
  split
  · split
    · rfl
    · next o ho =>
      simp only
      split
      · rfl
      · split
        · rfl
        · exact hwrite ho _ _
  · rfl

theorem demand_motion : (demand p s).2.motion = s.motion := by
  obtain ⟨ds, hds⟩ := demandItems_writes_demands (p.length / 4) p s
  rw [demand, hds]
  rfl

theorem profileSwap_motion : (profileSwap p s).2.motion = s.motion := by
  unfold profileSwap
  split
  · rfl
  · simp only
    split <;> simp

theorem rangeSet_motion : (rangeSet p s).2.motion = s.motion := by
  unfold rangeSet writeRange
  split
  · split
    · split <;> rfl
    · rfl
  · rfl

theorem mapSet_motion : (mapSet p s).2.motion = s.motion := by
  unfold mapSet
  simp only
  split
  · rfl
  · split <;> rfl

theorem progLoadFirst_motion : (progLoadFirst p s).2.motion = s.motion := by
  have hload (i : SlotId) (start : Option Nat) (cont : Bool) : (loadFirst i p start cont s).2.motion = s.motion := by
    unfold loadFirst
    split
    · rfl
    · split <;> rfl
  unfold progLoadFirst
  split
  · rfl
  · split
    · rfl
    · split
      · rfl
      · split
        · split
          · exact hload ..
          · rfl
        · rfl

theorem progLoadNext_motion : (progLoadNext p s).2.motion = s.motion := by
  unfold progLoadNext
  repeat' split
  all_goals rfl

theorem startRun_motion (i : SlotId) : (startRun i s).motion = s.motion := by
  unfold startRun
  split <;> simp

theorem progStart_motion : (progStart p s).2.motion = s.motion := by
  unfold progStart
  split
  · rfl
  · split
    · rfl
    · split
      · rfl
      · exact startRun_motion ..

theorem progStop_motion : (progStop p s).2.motion = s.motion := by
  unfold progStop
  split
  · rfl
  · split
    · simp [stopRun]
    · rfl

theorem clockSet_motion : (clockSet p s).2.motion = s.motion := by
  unfold clockSet
  split <;> rfl

theorem noticeMask_motion : (noticeMask p s).2.motion = s.motion := by
  unfold noticeMask
  simp only
  split <;> rfl

theorem capacityStalenessExpiry_motion : (capacityStalenessExpiry s).motion = s.motion := by
  unfold capacityStalenessExpiry
  simp only
  split <;> simp

theorem stalenessTimerExpiry_motion (c : Channel) : (stalenessTimerExpiry c s).motion = s.motion := by
  unfold stalenessTimerExpiry
  split <;> simp

theorem reachTimerExpiry_motion (i : SlotId) : (reachTimerExpiry i s).motion = s.motion := by
  unfold reachTimerExpiry
  split <;> simp

theorem holdTimerExpiry_motion (i : SlotId) : (holdTimerExpiry i s).motion = s.motion := by
  unfold holdTimerExpiry
  split <;> simp

theorem gapTimerExpiryProg_motion (i : SlotId) : (gapTimerExpiryProg i s).motion = s.motion := by
  unfold gapTimerExpiryProg
  split <;> simp

/-- What a sample does to the step on the outlet. -/
theorem sampleStep_motion (c : Channel) (r : Int) : (sampleStep c r s).motion = s.motion := by
  have hreach (i : SlotId) (st : Step) : (reachTemp i st s).motion = s.motion := by
    rw [reachTemp_eq]
    split <;> simp
  have hdip (i : SlotId) (st : Step) : (dip i st s).motion = s.motion := by
    unfold dip
    simp only
    split <;> simp
  unfold sampleStep
  split
  · rfl
  · split
    · split
      · exact hreach ..
      · rfl
    · split
      · exact hdip ..
      · rfl
    · rfl
    · rfl

theorem sensorFailure_motion (c : Channel) : (sensorFailure c s).motion = s.motion := by
  unfold sensorFailure
  split
  · rfl
  · split <;> simp

theorem takeResult_motion (r : RoundResult) : (takeResult r s).motion = s.motion := by
  have hlog (u : State) (x : LogEntry) : (writeLog x u).motion = u.motion := by
    rw [writeLog_eq]
    rfl
  rw [takeResult_eq_writeLogs]
  exact (foldl_motion _ hlog _).trans rfl

theorem feederStage_motion (q : Pool) (ps : List Part) (a : Nat) : (feederStage q ps a s).motion = s.motion := by
  unfold feederStage
  split
  · rfl
  · split
    · rfl
    · exact State.modifyOutlet_motion _ _ fun _ => rfl

theorem designate_motion (h : HwPool) (old new : Option Channel) : (designate h old new s).motion = s.motion := by
  have hrelease (c : Channel) : (s.modifyOutlet c releaseFeeder).motion = s.motion := s.modifyOutlet_motion c fun _ => rfl
  have hmake (u : State) (c : Channel) : (u.modifyOutlet c (makeFeeder h)).motion = u.motion :=
    u.modifyOutlet_motion c fun _ => rfl
  unfold designate
  split
  · rfl
  · cases old with
    | none =>
      cases new with
      | none => rfl
      | some c => exact hmake s c
    | some a =>
      cases new with
      | none => exact hrelease a
      | some c => exact (hmake _ c).trans (hrelease a)

theorem roundBegun_motion (q : Pool) : (roundBegun q s).motion = s.motion := by
  have h := roundBegun_frame q s
  unfold State.sameButRound at h
  rw [h, roundBegun_outlets]
  rfl

end

end Sys2Proof.Machine
end

section
/-! Every command, and so every step, keeps a property that the operations of the Drive Unit keep (`KeptByMotion`); and so the three
invariants of the Drive Unit hold of every step. -/

namespace Sys2Proof.Machine

/-! ### The targets of a round (R53, R59, R60) -/

theorem targetOf_le {g rated : Nat} (h : g ≤ rated) : targetOf g rated ≤ 1000 := by
  rcases Nat.eq_zero_or_pos rated with rfl | hr
  · simp [targetOf]
  · exact (targetOf_mono rated h).trans (targetOf_rated hr).le

theorem effectiveDemand_le_rated (o : Outlet) (prof : Profile) (d : Nat) : effectiveDemand o prof d ≤ o.fixed.ratedKw := by
  have h : min d (min prof.maxKw o.fixed.ratedKw) ≤ o.fixed.ratedKw :=
    (Nat.min_le_right ..).trans (Nat.min_le_right ..)
  unfold effectiveDemand
  simp only
  split
  · exact (Nat.min_le_left ..).trans h
  · exact h

/-- No participant is granted more than its outlet's RATED_KW. -/
theorem roundGrants_le_rated {p : Pool} {s : State} {q : Part} (hq : q ∈ roundGrants p s) {o : Outlet}
    (ho : s.outlet q.ch = some o) : q.g ≤ o.fixed.ratedKw := by
  obtain ⟨-, hgiven, hdemand, -⟩ := allocate_filled (c := (s.pool p).figures.c) (ps := participants p s) rfl
    (channels_nodup_of_ascending (participants_ascending p s)) (participants_fu_le p s)
  have hbound := forall_of_given hgiven (fun x => ∀ o, s.outlet x.1 = some o → x.2.2.2.1 ≤ o.fixed.ratedKw)
    (fun q' hq' o' ho' => by
      obtain ⟨o'', ho'', -, -, e⟩ := mem_participants.1 hq'
      obtain rfl : o'' = o' := Option.some.inj (ho''.symm.trans ho')
      simp only [Part.asGiven]
      rw [e]
      exact effectiveDemand_le_rated ..)
  exact (hdemand q hq).trans (hbound q hq o ho)

theorem giveTarget_fixed (c : Channel) (t : Nat) (s : State) (d : Channel) :
    ((giveTarget c t s).outlet d).map Outlet.fixed = (s.outlet d).map Outlet.fixed := by
  obtain ⟨-, -, -, -, -, -, -, -, -, -, -, -, -, -, hout⟩ :=
    (keptByDrive_frame s).giveTarget_any (fun _ _ _ h => h) c t (driveFrame_refl s)
  have h := congrArg (Option.map Prod.fst) (hout d)
  rw [Option.map_map, Option.map_map] at h
  exact h

theorem requestHoming_handoff (c : Channel) (s : State) : (requestHoming c s).handoff = s.handoff := by
  obtain ⟨-, -, -, -, -, -, hhandoff, -⟩ := (keptByDrive_frame s).requestHoming c (driveFrame_refl s)
  exact hhandoff

namespace KeptByMotion

variable {P : State → Prop} (h : KeptByMotion P) {s : State}
include h

/-! ### The requests of the Outlet Table -/

theorem setState {c : Channel} {o : Outlet} (ho : s.outlet c = some o) (hs : ¬o.state.parked) (o' : Outlet) (hp : P s) :
    P (s.setOutlet c (some o')) :=
  h.outlet c _ (fun _ hold => absurd (hold o ho) hs) hp

theorem modifyOutlet (c : Channel) {f : Outlet → Outlet} (hf : ∀ o, o.state.parked → (f o).state.parked) (hp : P s) :
    P (s.modifyOutlet c f) :=
  h.outlet c _ (fun _ hold o' ho' => by
    obtain ⟨o, ho, rfl⟩ := Option.map_eq_some_iff.1 ho'
    exact hf o (hold o ho)) hp

theorem modifyOutlet_parked (c : Channel) {f : Outlet → Outlet}
    (hf : ∀ o, o.state.parked → (f o).state = o.state) (hp : P s) : P (s.modifyOutlet c f) :=
  h.modifyOutlet c (fun o ho => by rwa [hf o ho]) hp

theorem createOutlet (c : Channel) (fx : FixedPart) (prof : Profile) (hp : P s) : P (Machine.createOutlet c fx prof s) := by
  unfold Machine.createOutlet
  split
  · exact h.congr (h.outlet c (some (newOutlet fx prof .held)) (fun _ _ o ho => by
      obtain rfl := Option.some.inj ho
      exact .inl rfl) hp) rfl
  · next hh =>
    refine h.homing (o := newOutlet fx prof .homing) ?_ rfl
      (h.congr (h.outlet c (some (newOutlet fx prof .homing)) (fun hh' => absurd hh' hh) hp) rfl)
    rw [initNeighbours, State.setCurtailment_outlet, State.setDemand_outlet, State.outlet_setOutlet, if_pos rfl]

theorem outletSet (p : List Byte) (s : State) (hp : P s) : P (Machine.outletSet p s).2 := by
  have hwrite (c : Channel) (rawF : FixedPart) (rawP : Profile) : P (writeOutlet c rawF rawP s).2 := by
    unfold writeOutlet
    simp only
    split
    · exact h.createOutlet c _ _ hp
    · next o ho =>
      split
      · exact hp
      · exact h.congr hp ((initNeighbours_motion ..).trans (State.setOutlet_motion (by rw [ho]; rfl)))
  refine atOutlet_keeps hp fun c => ?_
  split
  · simp only
    split
    · exact hwrite ..
    · exact hp
  · exact hp

theorem outletDrop (p : List Byte) (s : State) (hp : P s) : P (Machine.outletDrop p s).2 := by
  refine atOutlet_keeps hp fun c => ?_
  split
  · exact hp
  · exact h.stop c (h.congr (h.outlet c none (fun _ _ o ho => (Option.some_ne_none o ho.symm).elim) hp) rfl)

/-- BAR_ALL newly set: an eligible outlet is in no handed-off bank. -/
theorem lockOutlet (c : Channel) (hp : P s) : P (Machine.lockOutlet c s) := by
  unfold Machine.lockOutlet
  split
  · exact hp
  · next o ho =>
    split
    · next he =>
      refine h.target c 0 (Nat.zero_le _) (h.setState ho ?_ _ hp)
      rintro (hs | hs) <;> simp [hs, OutletState.eligible] at he
    · exact hp

theorem unlockOutlet (c : Channel) (hp : P s) : P (Machine.unlockOutlet c s) := by
  refine h.modifyOutlet_parked c (fun o ho => ?_) hp
  have : o.state ≠ .locked := by rcases ho with ho | ho <;> simp [ho]
  simp [this]

theorem barSet (p : List Byte) (s : State) (hp : P s) : P (Machine.barSet p s).2 := by
  have happly (c : Channel) (old new : Bars) {u : State} (hu : P u) : P (applyBars c old new u) := by
    have hall : P (if old.all = false ∧ new.all = true then Machine.lockOutlet c u
        else if old.all = true ∧ new.all = false then Machine.unlockOutlet c u else u) := by
      split
      · exact h.lockOutlet c hu
      · split
        · exact h.unlockOutlet c hu
        · exact hu
    unfold applyBars
    simp only
    split
    · exact h.congr hall (failStepsOn_motion ..)
    · exact hall
  refine atOutlet_keeps hp fun c => ?_
  split
  · exact hp
  · split
    · exact hp
    · next o ho => exact happly _ _ _ (h.congr hp (State.setOutlet_motion (by rw [ho]; rfl)))

theorem rehome (p : List Byte) (s : State) (hp : P s) : P (Machine.rehome p s).2 := by
  refine atOutlet_keeps hp fun c => ?_
  split
  · next he =>
    cases ho : s.outlet c with
    | none => simp [State.isEligible, ho] at he
    | some o =>
      have he' : o.state.eligible = true := by simpa [State.isEligible, ho] using he
      rw [modifyOutlet_present _ ho]
      refine h.homing (o := leaveEligible .homing o) ?_ rfl (h.setState ho ?_ _ hp)
      · rw [State.outlet_setOutlet, if_pos rfl]
      · rintro (hs | hs) <;> simp [hs, OutletState.eligible] at he'
  · exact hp

theorem faultClear (p : List Byte) (s : State) (hp : P s) : P (Machine.faultClear p s).2 := by
  refine atOutlet_keeps hp fun c => ?_
  split
  · exact hp
  · next o _ =>
    split
    · next hc =>
      refine h.homing (o := { o with state := .homing }) (by rw [State.outlet_setOutlet, if_pos rfl]) rfl
        (h.outlet c _ (fun hh => ?_) hp)
      rw [hc.2] at hh
      cases hh
    · exact hp

theorem warming (c : Channel) (test : Outlet → Bool) (hp : P s) :
    P (s.modifyOutlet c fun o => if o.state = .warming ∧ test o = true then endWarmUp o else o) := by
  refine h.modifyOutlet_parked c (fun o ho => ?_) hp
  have : o.state ≠ .warming := by rcases ho with ho | ho <;> simp [ho]
  simp [this]

/-! ### The allocation round and the disable of a pool -/

theorem grantOutlet {p : Pool} {q : Part} (hq : s.eligibleIn p q.ch) (hp : P s) : P (Machine.grantOutlet s q) := by
  obtain ⟨o, ho, -, he⟩ := hq
  rw [grantOutlet_eq, modifyOutlet_present _ ho]
  refine h.setState ho ?_ _ hp
  rintro (hs | hs) <;> simp [hs, OutletState.eligible] at he

theorem targetOutlet {q : Part} (hq : ∀ o, s.outlet q.ch = some o → q.g ≤ o.fixed.ratedKw) (hp : P s) :
    P (Machine.targetOutlet s q) := by
  unfold Machine.targetOutlet
  split
  · next o ho =>
    split
    · exact h.target _ _ (targetOf_le (hq o ho)) hp
    · exact hp
  · exact hp

theorem runRound (p : Pool) (hp : P s) : P (Machine.runRound p s) := by
  have hrecords : P (roundRecords p s) := by
    refine h.congr ?_ (State.setPool_motion ..)
    refine (List.foldlRecOn (motive := fun u : State => P u ∧ ∀ q ∈ roundParts p s, u.eligibleIn p q.ch) (roundParts p s)
      Machine.grantOutlet ⟨h.congr hp (roundBegun_motion s p), fun q hq => roundGrants_eligible hq⟩ ?_).1
    rintro u ⟨hu, heligible⟩ q hq
    exact ⟨h.grantOutlet (heligible q hq) hu, fun q' hq' => grantOutlet_eligibleIn q (heligible q' hq')⟩
  have hrated : ∀ q ∈ roundParts p s, ∀ o, (roundRecords p s).outlet q.ch = some o → q.g ≤ o.fixed.ratedKw := by
    intro q hq o ho
    rw [roundRecords_participant hq] at ho
    obtain ⟨o', ho', rfl⟩ := Option.map_eq_some_iff.1 ho
    rw [(grantedRecord_kept ..).1]
    exact roundGrants_le_rated hq ((roundBegun_outlet ..).trans ho')
  have htargets : P ((roundParts p s).foldl Machine.targetOutlet (roundRecords p s)) := by
    refine (List.foldlRecOn (motive := fun u : State => P u ∧
      ∀ q ∈ roundParts p s, ∀ o, u.outlet q.ch = some o → q.g ≤ o.fixed.ratedKw) (roundParts p s) Machine.targetOutlet
      ⟨hrecords, hrated⟩ ?_).1
    rintro u ⟨hu, hbound⟩ q hq
    refine ⟨h.targetOutlet (hbound q hq) hu, fun q' hq' o ho => ?_⟩
    have hfixed : ((Machine.targetOutlet u q).outlet q'.ch).map Outlet.fixed = (u.outlet q'.ch).map Outlet.fixed := by
      unfold Machine.targetOutlet
      split
      · split
        · exact giveTarget_fixed ..
        · rfl
      · rfl
    rw [ho, Option.map_some] at hfixed
    obtain ⟨o', ho', e⟩ := Option.map_eq_some_iff.1 hfixed.symm
    exact e ▸ hbound q' hq' o' ho'
  rw [runRound_eq]
  exact h.congr htargets ((feederStage_motion ..).trans (foldl_motion _ (fun u q => takeResult_motion u _) _))

theorem disablePool (p : Pool) (hp : P s) : P (Machine.disablePool p s) := by
  have hdisable (c : Channel) {u : State} (hu : P u) :
      P (u.modifyOutlet c fun o => if o.fixed.pool = p then disableOutlet o else o) := by
    refine h.modifyOutlet_parked c (fun o ho => ?_) hu
    have he : o.state.eligible = false := by rcases ho with ho | ho <;> rw [ho] <;> rfl
    split
    · simp [disableOutlet, he]
    · rfl
  have hout : P (disabledOutlets p s) := by
    have hall := List.foldlRecOn (motive := P) (indices 48) (fun s c =>
      s.modifyOutlet c fun o => if o.fixed.pool = p then disableOutlet o else o) hp fun u hu c _ => hdisable c hu
    unfold disabledOutlets
    simp only
    split
    · exact hall
    · split
      · exact h.congr hall (State.modifyOutlet_motion _ _ fun _ => rfl)
      · exact hall
  have hrecords : P (disableRecords p s) := by
    rw [disableRecords_eq]
    exact h.congr hout (State.setPool_motion ..)
  refine List.foldlRecOn (motive := P) _ _ hrecords fun u hu c _ => ?_
  split
  · exact h.target c 0 (Nat.zero_le _) hu
  · exact hu

theorem applyEnable (p : Pool) (was is_ : Bool) (hp : P s) : P (Machine.applyEnable p was is_ s) := by
  unfold Machine.applyEnable
  split
  · exact h.runRound p hp
  · exact h.disablePool p hp
  · exact hp
  · exact hp

theorem poolSet (p : List Byte) (s : State) (hp : P s) : P (Machine.poolSet p s).2 := by
  unfold Machine.poolSet
  split
  · unfold poolSetSteam
    simp only
    split
    · exact h.applyEnable _ _ _ (h.congr hp (by simp))
    · exact hp
  · unfold poolSetHw
    split
    · exact hp
    · exact h.applyEnable _ _ _ (h.congr hp ((designate_motion ..).trans (by simp)))
  · exact hp
  · exact hp

theorem rebalance (p : List Byte) (s : State) (hp : P s) : P (Machine.rebalance p s).2 := by
  unfold Machine.rebalance
  split
  · exact hp
  · split
    · exact h.runRound _ hp
    · exact hp

theorem roundTimerExpiry (p : Pool) (hp : P s) : P (Machine.roundTimerExpiry p s) := by
  unfold Machine.roundTimerExpiry
  split
  · exact h.runRound p hp
  · exact hp

/-! ### The hand-off of a bank (R129 to R133) -/

/-- A bank is handed off with its channels parked (R130, R131). -/
theorem bhoAssertion (b : BankId) (hp : P s) : P (Machine.bhoAssertion b s) := by
  have h₁ : P (setBho b true s) := h.congr hp rfl
  have hbho : (setBho b true s).handoff.bho.get b = true := Table.get_set_same ..
  have hhold (c : Channel) {u : State} (hu : P u) : P (holdOutlet u c) := by
    cases ho : u.outlet c with
    | none => rwa [holdOutlet_absent ho]
    | some o =>
      by_cases hs : o.state = .held ∨ o.state = .faulted
      · rwa [holdOutlet_silent ho hs]
      · rw [holdOutlet_holds ho hs]
        exact h.congr (h.setState ho hs _ hu) (failStepsOn_motion ..)
  have hheld : P (bankHeld b (setBho b true s)) :=
    List.foldlRecOn (motive := P) _ _ (List.foldlRecOn (motive := P) _ _ h₁ fun u hu c _ => h.unknown c (h.stop c hu))
      fun u hu c _ => hhold c hu
  unfold Machine.bhoAssertion
  simp only
  split
  · exact hp
  · split
    · exact h₁
    · rw [takeBank_eq]
      refine h.congr (h.handOff b (fun c hc => ?_) hheld) (raise_motion ..)
      obtain ⟨hpos, hq, hout⟩ := bankHeld_bank hbho hc
      rw [List.mem_append, not_or] at hq
      refine ⟨by rw [hpos]; rfl, by rw [hpos]; rfl, by rw [hpos]; rfl, hq.1, hq.2, fun o ho => ?_⟩
      rw [hout] at ho
      obtain ⟨o', -, rfl⟩ := Option.map_eq_some_iff.1 ho
      exact heldRecord_state o'

theorem bhoRelease (b : BankId) (hp : P s) : P (Machine.bhoRelease b s) := by
  have h₁ : P (setBho b false s) := h.congr hp rfl
  have hback : (setHandedOff b false (setBho b false s)).handoff.handedOff.get b = false := Table.get_set_same ..
  unfold Machine.bhoRelease
  simp only
  split
  · split
    · exact h₁
    · refine h.congr (List.foldlRecOn (motive := fun u : State => P u ∧ u.handoff.handedOff.get b = false)
        (bankChannels b) rehomeHeld ⟨h.handBack b h₁, hback⟩ ?_).1 (raise_motion ..)
      rintro u ⟨hu, hub⟩ c hc
      unfold rehomeHeld
      split
      · exact ⟨hu, hub⟩
      · next o ho =>
        split
        · refine ⟨h.homing (o := { o with state := .homing }) (by rw [State.outlet_setOutlet, if_pos rfl]) rfl
            (h.outlet c _ (fun hh => ?_) hu), by rw [requestHoming_handoff]; exact hub⟩
          rw [State.handedOff, mem_bankChannels.1 hc, hub] at hh
          cases hh
        · exact ⟨hu, hub⟩
  · exact hp

/-! ### Samples and ticks -/

theorem sampleEvent (i : InputId) (r : Int) (hp : P s) : P (Machine.sampleEvent i r s) := by
  have hsampled (y : Sensor) : P (sampledState i y s) := by
    refine h.congr hp ?_
    unfold sampledState
    split <;> simp
  by_cases hi : i.val < 48
  · rw [sampleEvent_branch (c := ⟨i.val, hi⟩) r s rfl]
    unfold handSample
    split
    · refine h.congr ?_ (sampleStep_motion ..)
      have hw := h.warming ⟨i.val, hi⟩ (fun o => decide (o.fixed.warmTemp ≤ r))
        (hsampled (sampleRecord (readingValid i r) r (s.sensor i)))
      simp only [decide_eq_true_eq] at hw
      exact hw
    · split
      · exact h.congr (hsampled _) (sensorFailure_motion ..)
      · exact hsampled _
  · rw [sampleEvent_plant r s (by omega)]
    exact hsampled _

theorem clockTick (hp : P s) : P (Machine.clockTick s) := by
  have hseconds (u : State) : (tickSeconds u).motion = u.motion := by
    refine State.motion_eq.2 ⟨rfl, rfl, fun c => ?_⟩
    rw [State.outlet, tickSeconds, Table.get_map, tickOutlet, Option.map_map]
    rfl
  have h₁ : P (tickSeconds (advanceMs (Config.msPerSecond - s.msPhase) s)) := h.congr (h.advance _ hp) (hseconds _)
  unfold Machine.clockTick
  simp only
  split
  · exact h.congr h₁ ((foldl_motion _ (fun u i => beginPass_motion ..) _).trans rfl)
  · exact h.congr h₁ rfl

theorem idle (hp : P s) : P (Machine.idle s) := by
  unfold Machine.idle
  split
  · exact h.congr (h.advance 1 hp) rfl
  · exact hp

theorem frameSent (hp : P s) : P (Machine.frameSent s) := by
  unfold Machine.frameSent
  split
  · exact hp
  · split
    · exact h.reset ..
    · exact h.congr hp rfl

/-! ### Every command, and every step -/

theorem exec {i : Instr} {t : State} (hp : P s) (ht : Machine.exec i s = .next t) : P t := by
  have req := fun (row : Instr) (body : List Byte → State → Answer × State)
      (hbody : ∀ (p : List Byte) (s : State), P s → P (body p s).2)
      (ht : request row body s = .next t) => request_keeps (fun _ _ h' => h.congr h' rfl) hbody hp ht
  have other := fun (row : Instr) (body : List Byte → State → Answer × State)
      (hbody : ∀ (p : List Byte) (s : State), (body p s).2.motion = s.motion) =>
    req row body fun p s hs => h.congr hs (hbody p s)
  have reads := fun (row : Instr) (body : List Byte → State → Answer × State) (hb : ∀ p s, (body p s).2 = s) =>
    other row body fun p s => congrArg State.motion (hb p s)
  have event := fun (f : State → State) (hf : P (f s)) (ht : running f s = .next t) => running_keeps hp hf ht
  have otherEvent := fun (f : State → State) (hf : (f s).motion = s.motion) => event f (h.congr hp hf)
  cases i with
  | frameArrival bytes => exact otherEvent _ (frameArrival_motion s bytes) ht
  | gapTimerExpiry => exact otherEvent _ (gapTimerExpiry_motion s) ht
  | badKind => exact reads _ _ (fun _ _ => rfl) ht
  | frameSent => exact event _ (h.frameSent hp) ht
  | rstnAsserted => cases ht; exact h.congr hp rfl
  | hardwareReset => cases ht; exact h.reset ..
  | outletSet => exact req _ _ h.outletSet ht
  | outletDrop => exact req _ _ h.outletDrop ht
  | profileSet => exact other _ _ profileSet_motion ht
  | barSet => exact req _ _ h.barSet ht
  | demand => exact other _ _ demand_motion ht
  | rehome => exact req _ _ h.rehome ht
  | faultClear => exact req _ _ h.faultClear ht
  | poolSet => exact req _ _ h.poolSet ht
  | profileSwap => exact other _ _ profileSwap_motion ht
  | supply => exact other _ _ (fun _ _ => rfl) ht
  | rebalance => exact req _ _ h.rebalance ht
  | rangeSet => exact other _ _ rangeSet_motion ht
  | mapSet => exact other _ _ mapSet_motion ht
  | progLoadFirst => exact other _ _ progLoadFirst_motion ht
  | progLoadNext => exact other _ _ progLoadNext_motion ht
  | progStart => exact other _ _ progStart_motion ht
  | progStop => exact other _ _ progStop_motion ht
  | clockSet => exact other _ _ clockSet_motion ht
  | readOutlet => exact reads _ _ readOutlet_snd ht
  | readPool => exact reads _ _ readPool_snd ht
  | readProg => exact reads _ _ readProg_snd ht
  | readSensors => exact reads _ _ readSensors_snd ht
  | readLog => exact other _ _ (fun _ _ => rfl) ht
  | readStatus => exact reads _ _ (fun _ _ => rfl) ht
  | noticeAck => exact other _ _ (fun _ _ => rfl) ht
  | noticeMask => exact other _ _ noticeMask_motion ht
  | reset => exact other _ _ (fun _ _ => rfl) ht
  | roundTimerExpiry p => exact event _ (h.roundTimerExpiry p hp) ht
  | capacityStalenessExpiry => exact otherEvent _ (capacityStalenessExpiry_motion s) ht
  | stalenessTimerExpiry c => exact otherEvent _ (stalenessTimerExpiry_motion s c) ht
  | warmTimerExpiry c => exact event _ (h.warming c (fun o => timerDue o.warmTimer) hp) ht
  | sampleEvent i r => exact event _ (h.sampleEvent i r hp) ht
  | clockTick => exact event _ (h.clockTick hp) ht
  | moveTimerExpiry c => exact event _ (h.moveTimer c hp) ht
  | checkTimerExpiry c => exact event _ (h.checkTimer c hp) ht
  | pauseTimerExpiry c => exact event _ (h.pauseTimer c hp) ht
  | limitEvent c line active => cases ht; exact h.limit c line active hp
  | bhoAssertion b => cases ht; exact h.bhoAssertion b hp
  | bhoRelease b => cases ht; exact h.bhoRelease b hp
  | reachTimerExpiry i => exact otherEvent _ (reachTimerExpiry_motion s i) ht
  | holdTimerExpiry i => exact otherEvent _ (holdTimerExpiry_motion s i) ht
  | gapTimerExpiryProg i => exact otherEvent _ (gapTimerExpiryProg_motion s i) ht

theorem step {t : State} (hp : P s) (ht : Machine.step s = .next t) : P t := by
  unfold Machine.step at ht
  split at ht
  · cases ht
    exact h.idle hp
  · next c rest _ => exact h.exec (s := { s with pending := rest }) (h.congr hp rfl) ht

end KeptByMotion

/-- Settles O60: the three invariants are each kept by the operations of the Drive Unit, and so by every step. -/
theorem stepKeepsDriveInRange : Obligations.StepKeepsDriveInRange := by
  unfold Obligations.StepKeepsDriveInRange
  intro s t ht
  exact ⟨fun hbounded hrange => keptByMotion_driveInRange.step ⟨hbounded, hrange⟩ ht,
    fun hqueue => keptByMotion_queueRight.step hqueue ht, fun hhandoff => keptByMotion_handoffRight.step hhandoff ht⟩

end Sys2Proof.Machine
end

section
/-! The Plant Clock (R142, R164, R165): a tick is one count of every timer and of the clock, and then the minute event. -/

namespace Sys2Proof.Machine

/-! ### The clock (R164) -/

theorem advanceClock_second {x : PlantClock} (h : x.second < 59) :
    advanceClock x = ({ x with second := x.second + 1 }, none) :=
  if_pos (by omega)

theorem advanceClock_minute {x : PlantClock} (h : 59 ≤ x.second) : advanceClock x =
    ({ x with second := 0, minute := (x.minute + 1) % 10080 }, some ((x.minute + 1) % 10080)) :=
  if_neg (by omega)

theorem advanceClock_isSet (x : PlantClock) : (advanceClock x).1.isSet = x.isSet := by
  unfold advanceClock
  split <;> rfl

/-! ### What a tick counts, before the minute event (R165) -/

/-- The state after the timers and the clock have counted the tick. -/
def tickCounted (s : State) : State :=
  { tickSeconds (advanceMs (Config.msPerSecond - s.msPhase) s) with msPhase := 0, clock := (advanceClock s.clock).1 }

theorem clockTick_second {s : State} (h : s.clock.second < 59) : clockTick s = tickCounted s := by
  have hclock : (tickSeconds (advanceMs (Config.msPerSecond - s.msPhase) s)).clock = s.clock := rfl
  simp only [clockTick, tickCounted, hclock, advanceClock_second h]

theorem clockTick_minute {s : State} (h : 59 ≤ s.clock.second) :
    clockTick s = minuteEvent ((s.clock.minute + 1) % 10080) (tickCounted s) := by
  have hclock : (tickSeconds (advanceMs (Config.msPerSecond - s.msPhase) s)).clock = s.clock := rfl
  simp only [clockTick, tickCounted, hclock, advanceClock_minute h]

section
variable (s : State)

theorem tickCounted_outlet (c : Channel) : (tickCounted s).outlet c =
    (s.outlet c).map fun o => { o with warmTimer := o.warmTimer.map fun n => n - 1 } :=
  Table.get_map ..

theorem tickCounted_demand (c : Channel) : (tickCounted s).demand c = tickDemand (s.demand c) :=
  Table.get_map ..

theorem tickCounted_pool (p : Pool) : (tickCounted s).pool p = tickPool (s.pool p) := by
  rcases p with _ | _ | _ <;> rfl

theorem tickCounted_hwPart (h : HwPool) : (tickCounted s).hwPart h = s.hwPart h := by
  cases h <;> rfl

theorem tickCounted_slot (i : SlotId) : (tickCounted s).slot i = tickSlot (s.slot i) :=
  Table.get_map ..

theorem tickCounted_position (c : Channel) :
    (tickCounted s).position c = advancePosition (Config.msPerSecond - s.msPhase) (s.position c) :=
  Table.get_map ..

end

theorem tickDemand_other {d : HostDemand} (h : ∀ kw n : Nat, d ≠ .current kw n) : tickDemand d = d := by
  cases d with
  | absent => rfl
  | current kw n => exact absurd rfl (h kw n)
  | stale kw => rfl

/-! ### The minute event (R142) -/

theorem mem_wokenSlots {m : Nat} {s : State} {i : SlotId} :
    i ∈ wokenSlots m s ↔ (s.slot i).state = .waiting ∧ (s.slot i).waitMinute = some m := by
  simp [wokenSlots]

theorem wokenSlots_ascending (m : Nat) (s : State) : (wokenSlots m s).Pairwise (fun i j => i < j) := by
  have h : (indices 4).Pairwise (fun i j => i < j) := by
    rw [indices_eq_finRange]
    exact List.pairwise_lt_finRange 4
  exact h.filter _

/-! ### CLOCK_SET (R165) -/

theorem exec_clockSet {s t : State} {f : Frame} {rest : List Frame} {a : Answer} (h : s.takes f rest) (hk : f.kind = 0x11)
    (hl : f.payload.length = 3) (hb : clockSet f.payload (s.dequeue rest) = (a, t)) :
    exec .clockSet s = .next (t.answered f a) :=
  request_answers h (requestRow_of_kind hk (by decide)) (by simp [fits, hl]) hb

/-- Settles O54: the tick is `tickCounted` and, at the end of a minute, the minute event behind it. -/
theorem clockTicksAndLoads : Obligations.ClockTicksAndLoads := by
  unfold Obligations.ClockTicksAndLoads
  refine ⟨fun s hlow => ⟨tickCounted s, advanceClock_isSet s.clock, fun h => ?_, fun h => ?_, fun i => ?_,
    wokenSlots_ascending .., tickCounted_outlet s, fun c kw n hd => ?_, fun c hd => ?_, fun p => ⟨_, rfl, tickCounted_pool s p⟩,
    tickCounted_hwPart s, rfl, fun i => ⟨_, rfl, tickCounted_slot s i⟩, ?_, rfl⟩, fun s f rest hf hk hl => ⟨fun hbad => ?_,
    fun hm hs => ?_⟩⟩
  · have hclock : (tickCounted s).clock = { s.clock with second := s.clock.second + 1 } :=
      congrArg Prod.fst (advanceClock_second h)
    have hexec : exec .clockTick s = .next (clockTick s) := running_next _ s hlow
    rw [hclock, hexec, clockTick_second h]
    exact ⟨rfl, rfl, rfl⟩
  · have hclock : (tickCounted s).clock = { s.clock with second := 0, minute := (s.clock.minute + 1) % 10080 } :=
      congrArg Prod.fst (advanceClock_minute h)
    have hexec : exec .clockTick s = .next (clockTick s) := running_next _ s hlow
    rw [hclock, hexec, clockTick_minute h]
    exact ⟨rfl, rfl, rfl⟩
  · rw [mem_wokenSlots, tickCounted_slot]
    exact Iff.rfl
  · rw [tickCounted_demand, hd]
    rfl
  · rw [tickCounted_demand, tickDemand_other hd]
  · rintro c left rfl
    exact tickCounted_position s c
  · refine exec_clockSet hf hk hl ?_
    exact if_pos hbad
  · refine exec_clockSet hf hk hl (if_neg ?_)
    rintro (h | h)
    · exact absurd hm (Nat.not_lt.2 h)
    · exact absurd hs (Nat.not_lt.2 h)

end Sys2Proof.Machine
end

section
/-! Move needs (R98), the arbiter with an empty queue (R102), and the completion of a move (R104, R112, R114, R120). -/

namespace Sys2Proof.Machine

variable {arb : State → State} {s : State} {c : Channel} {o : Outlet} {m : Move} {d : MoveDir}

/-! ### Move needs (R98) -/

/-- The decision of R98 is the model's, for estimates in range. -/
theorem targetNeed_of_needIs {d : Option MoveDir} {t est deadband : Nat} {olim clim : Bool} (he : est ≤ 1000)
    (h : needIs d t est deadband olim clim) : targetNeed t est deadband olim clim = d := by
  have hmoves : (deadband < max (t - est) (est - t) ∨ (t = 0 ∧ clim = false) ∨ (t = 1000 ∧ olim = false)) ↔
      ¬(t ≤ est + deadband ∧ est ≤ t + deadband ∧ (t = 0 → clim = true) ∧ (t = 1000 → olim = true)) := by
    rw [lt_max_iff]
    cases clim <;> cases olim <;> simp <;> omega
  unfold targetNeed
  cases d with
  | none => rw [if_neg fun hm => hmoves.1 hm h]
  | some d =>
    cases d with
    | closing =>
      obtain ⟨hstill, hclosing⟩ := h
      rw [if_pos (hmoves.2 hstill), if_pos hclosing]
    | opening =>
      obtain ⟨hstill, h0, hopening⟩ := h
      rw [if_pos (hmoves.2 hstill), if_neg (by omega)]

theorem moveNeed_homing (ho : s.outlet c = some o) (hr : (s.position c).homeReq = true) : moveNeed c s = some .closing := by
  simp [moveNeed, ho, hr]

theorem moveNeed_untargeted (ht : (s.position c).target = none) (hr : (s.position c).homeReq = false) :
    moveNeed c s = none := by
  unfold moveNeed
  split
  · rfl
  · simp [hr, ht]

theorem moveNeed_target {t : Nat} (ho : s.outlet c = some o) (hr : (s.position c).homeReq = false)
    (ht : (s.position c).target = some t) : moveNeed c s = targetNeed t (s.position c).est
      (s.pool o.fixed.pool).settings.deadband (s.olimActive c) (s.climActive c) := by
  simp [moveNeed, ho, hr, ht]

/-- The decision at a channel whose record `q` has just been written. -/
theorem moveNeed_written {need : Option MoveDir} {q : Position} {t deadband : Nat} (ho : s.outlet c = some o)
    (hr : q.homeReq = false) (hq : q.target = some t) (he : q.est ≤ 1000)
    (hd : deadband = (s.pool o.fixed.pool).settings.deadband)
    (h : needIs need t q.est deadband (s.olimActive c) (s.climActive c)) : moveNeed c (s.setPosition c q) = need := by
  have hpos : (s.setPosition c q).position c = q := by rw [State.position_setPosition, if_pos rfl]
  refine (moveNeed_target (s := s.setPosition c q) ho (by rw [hpos, hr]) (by rw [hpos, hq])).trans ?_
  rw [hpos]
  exact targetNeed_of_needIs he (hd ▸ h)

/-- The outlet record bears on a need by its pool alone. -/
theorem moveNeed_setOutlet {u : Outlet} (ho : s.outlet c = some o) (hu : u.fixed = o.fixed) :
    moveNeed c (s.setOutlet c (some u)) = moveNeed c s := by
  have hu' : (s.setOutlet c (some u)).outlet c = some u := by rw [State.outlet_setOutlet, if_pos rfl]
  simp only [moveNeed, hu', ho, State.setOutlet_position, State.setOutlet_pool, State.setOutlet_olimActive,
    State.setOutlet_climActive, hu]

/-! ### The arbiter with an empty queue, and with one entry -/

theorem runArbiter_empty (hc : s.drive.closing = []) (ho : s.drive.opening = []) : runArbiter s = s :=
  runArbiter_of_passedOver fun x hx => by simp [hc, ho] at hx

theorem addEntry_empty (d : MoveDir) (c : Channel) (hc : s.drive.closing = []) (ho : s.drive.opening = []) :
    addEntry d c s = s.withQueue (if d = .closing then [c] else []) (if d = .opening then [c] else []) := by
  cases d with
  | closing => simp [addEntry, State.withQueue, hc, ho]
  | opening => simp [addEntry, State.withQueue, hc, ho]

theorem State.position_setPosition_self (s : State) (c : Channel) (p : Position) : (s.setPosition c p).position c = p :=
  (State.position_setPosition ..).trans (if_pos rfl)

theorem State.setPosition_setPosition (s : State) (c : Channel) (p q : Position) :
    (s.setPosition c p).setPosition c q = s.setPosition c q := by
  simp [State.setPosition]

theorem State.modifyPosition_setPosition (s : State) (c : Channel) (p : Position) (f : Position → Position) :
    (s.setPosition c p).modifyPosition c f = s.setPosition c (f p) := by
  rw [State.modifyPosition, State.position_setPosition_self, State.setPosition_setPosition]

/-- A paused channel joins an empty queue and waits there (R102, R111). -/
theorem joinQueue_paused {q : Position} (d : MoveDir) (hc : s.drive.closing = []) (ho : s.drive.opening = [])
    (hh : s.handedOff c = false) (hpause : q.pause ≠ none) : joinQueue runArbiter d c (s.setPosition c q) =
      (s.setPosition c q).withQueue (if d = .closing then [c] else []) (if d = .opening then [c] else []) := by
  have hpos : ((s.setPosition c q).withQueue (if d = .closing then [c] else []) (if d = .opening then [c] else [])).position c =
      q := (State.position_setPosition s c c q).trans (if_pos rfl)
  rw [joinQueue_joins (s := s.setPosition c q) hh, addEntry_empty (s := s.setPosition c q) d c hc ho]
  refine runArbiter_of_passedOver fun x hx => ?_
  obtain rfl : x = c := by cases d <;> simpa [State.withQueue] using hx
  exact .inl (by rw [hpos]; exact hpause)

/-! ### Completions (R104, R112, R114) -/

theorem completedPosition_other (est : Nat) (known : Bool) (p : Position) (h : m.kind ≠ .homing) :
    completedPosition m est known p = { p with
      est := est, known := known, move := none, travel := min 65535 (p.travel + m.elapsed / m.stroke),
      drift := p.drift || decide (4000 ≤ min 65535 (p.travel + m.elapsed / m.stroke)) } := by
  unfold completedPosition
  simp only [h, if_false]
  rfl

theorem completedPosition_homing (est : Nat) (known : Bool) (p : Position) (h : m.kind = .homing) :
    completedPosition m est known p = {
      est := 0, known := true, target := if p.homeReq = true then some 0 else p.target, move := none, homeReq := false,
      travel := 0, drift := false, pause := p.pause } := by
  unfold completedPosition
  simp only [h, if_true]
  rfl

/-- The state in which a completion decides the need left: the slot released, and the outlet told of a homing. -/
def completed (arb : State → State) (m : Move) (est : Nat) (known : Bool) (c : Channel) (s : State) : State :=
  if m.kind = .homing then homingDone c (arb (s.modifyPosition c (completedPosition m est known)))
  else arb (s.modifyPosition c (completedPosition m est known))

theorem completeMove_rests {est : Nat} {known : Bool} (h : moveNeed c (completed arb m est known c s) = none) :
    completeMove arb m est known c s = completed arb m est known c s := by
  unfold completed at h ⊢
  simp only [completeMove, h]

theorem completeMove_goesOn {est : Nat} {known : Bool} (h : moveNeed c (completed arb m est known c s) = some m.dir) :
    completeMove arb m est known c s = joinQueue arb m.dir c (completed arb m est known c s) := by
  unfold completed at h ⊢
  simp only [completeMove, h, if_true]

theorem completeMove_reverses {est : Nat} {known : Bool} (h : moveNeed c (completed arb m est known c s) = some d)
    (hd : d ≠ m.dir) : completeMove arb m est known c s = joinQueue arb d c
      ((completed arb m est known c s).modifyPosition c fun p => { p with pause := some 2000 }) := by
  unfold completed at h ⊢
  simp only [completeMove, h, hd, if_false]
  rfl

/-- A completion with nobody waiting, of a move that is no homing. -/
theorem completed_other (est : Nat) (known : Bool) (hc : s.drive.closing = []) (ho : s.drive.opening = [])
    (hk : m.kind ≠ .homing) : completed runArbiter m est known c s = s.setPosition c (completedPosition m est known (s.position c)) := by
  rw [completed, if_neg hk]
  exact runArbiter_empty hc ho

/-- A homing completed with nobody waiting. -/
theorem completed_homing (est : Nat) (known : Bool) (hc : s.drive.closing = []) (ho : s.drive.opening = [])
    (hout : s.outlet c = some o) (hk : m.kind = .homing) : completed runArbiter m est known c s =
      (s.setPosition c (completedPosition m est known (s.position c))).setOutlet c (some (homedOutlet o)) := by
  have harb : runArbiter (s.modifyPosition c (completedPosition m est known)) =
      s.setPosition c (completedPosition m est known (s.position c)) := runArbiter_empty hc ho
  rw [completed, if_pos hk, harb, homingDone_eq]
  exact modifyOutlet_present _ hout

/-- A homing of a channel with CLIM active, where no target is left to open for, leaves no need. -/
theorem homed_rests (est : Nat) (known : Bool) (hc : s.drive.closing = []) (ho : s.drive.opening = [])
    (hout : s.outlet c = some o) (hk : m.kind = .homing) (hclim : s.climActive c = true)
    (ht : (s.position c).homeReq = true ∨ (s.position c).target = some 0 ∨ (s.position c).target = none) :
    moveNeed c (completed runArbiter m est known c s) = none := by
  rw [completed_homing est known hc ho hout hk, completedPosition_homing est known _ hk]
  refine (moveNeed_setOutlet (s := s.setPosition c _) (u := homedOutlet o) hout rfl).trans ?_
  have htarget : (if (s.position c).homeReq = true then some 0 else (s.position c).target) = some 0 ∨
      (if (s.position c).homeReq = true then some 0 else (s.position c).target) = none := by
    rcases ht with h | h | h
    · simp [h]
    · simp [h]
    · cases (s.position c).homeReq <;> simp [h]
  rcases htarget with h | h
  · exact moveNeed_written hout rfl h (Nat.zero_le _) rfl ⟨by simp, by simp, fun _ => hclim, by simp⟩
  · refine moveNeed_untargeted ?_ ?_
    · rw [State.position_setPosition, if_pos rfl, h]
    · rw [State.position_setPosition, if_pos rfl]

/-- A completion with nobody waiting leaves the record `q` of R112 to decide the need by. -/
theorem completed_driven {est travel : Nat} {known : Bool} {p q : Position} (hc : s.drive.closing = [])
    (ho : s.drive.opening = []) (hk : m.kind ≠ .homing) (hp : p = s.position c)
    (ht : travel = min 65535 (p.travel + m.elapsed / m.stroke))
    (hq : q = { p with est := est, known := known, move := none, travel := travel, drift := p.drift || decide (4000 ≤ travel) }) :
    completed runArbiter m est known c s = s.setPosition c q := by
  rw [completed_other est known hc ho hk, completedPosition_other est known _ hk, hq, ht, hp]

/-- Settles O46: with nobody waiting the slot's release grants nothing, so the completion is its record, the outlet's, and the need
left. -/
theorem completedMoveComesToRest : Obligations.CompletedMoveComesToRest := by
  unfold Obligations.CompletedMoveComesToRest
  intro s c o m est known p q hcl hop ho hp hm
  refine ⟨fun hk travel htravel hq => ?_, fun hk travel deadband htravel hdb hq t hr ht ht' he => ?_,
    fun hk hdir hr t deadband u ht ht0 hdb hq hu => ?_, fun hk hclim ht hq => ?_⟩
  · have hstate := completed_driven hcl hop hk hp htravel hq
    refine ⟨fun hneed => ?_, fun d hneed hd hh => ?_⟩
    · rw [completeMove_rests (hstate ▸ hneed), hstate]
    · rw [completeMove_reverses (hstate ▸ hneed) hd, hstate, State.modifyPosition_setPosition,
        joinQueue_paused d hcl hop hh (by simp)]
      rfl
  · have hstate := completed_driven hcl hop hk hp htravel hq
    have hdecides {need : Option MoveDir} (h : needIs need t est deadband (s.olimActive c) (s.climActive c)) :
        moveNeed c (completed runArbiter m est known c s) = need := by
      subst hq
      exact hstate ▸ moveNeed_written ho hr ht he hdb h
    refine ⟨fun hneed => ?_, fun hneed hh => ?_⟩
    · rw [completeMove_rests (hdecides hneed), hstate]
    · rw [completeMove_goesOn (hdecides hneed), hstate, joinQueue_joins (s := s.setPosition c q) hh,
        addEntry_empty (s := s.setPosition c q) _ c hcl hop]
  · have hstate : completed runArbiter m est known c s = (s.setPosition c q).setOutlet c (some u) := by
      rw [completed_homing est known hcl hop ho hk, completedPosition_homing est known _ hk, hq, hu, ← hp, hr]
      rfl
    have hdecides {need : Option MoveDir} (h : needIs need t 0 deadband (s.olimActive c) (s.climActive c)) :
        moveNeed c (completed runArbiter m est known c s) = need := by
      subst hq
      rw [hstate]
      refine (moveNeed_setOutlet (s := s.setPosition c _) (u := u) ho (by rw [hu])).trans ?_
      exact moveNeed_written ho hr ht (Nat.zero_le _) hdb h
    refine ⟨fun hneed => ?_, fun hneed hh => ?_⟩
    · rw [completeMove_rests (hdecides hneed), hstate]
    · rw [completeMove_reverses (hdecides hneed) (by simp [hdir]), hstate]
      refine (congrArg _ (State.modifyPosition_setPosition (s.setOutlet c (some u)) c q _)).trans ?_
      exact joinQueue_paused (s := s.setOutlet c (some u)) .opening hcl hop hh (by simp)
  · subst hp
    rw [completeMove_rests (homed_rests est known hcl hop ho hk hclim ht), completed_homing est known hcl hop ho hk,
      completedPosition_homing est known _ hk, hq]
    rfl

end Sys2Proof.Machine
end

section
/-! Slot grants and the moves they start (R102, R103), and needs at still channels (R97 to R101). -/

namespace Sys2Proof.Machine

variable {arb : State → State} {s : State} {c : Channel} {o : Outlet} {p q : Position} {m : Move} {d : MoveDir}

/-! ### Kinds of move (R103) -/

theorem kindFor_of_moveIs {stroke timer : Nat} {k : MoveKind} (h : moveIs d p stroke k timer) : kindFor d p = k := by
  cases d with
  | closing =>
    rcases h with ⟨hr | ⟨ht, hdrift⟩, rfl, -⟩ | ⟨hr, ht, hdrift, rfl, -⟩ | ⟨hr, t, ht, hpos, rfl, -⟩
    · simp [kindFor, hr]
    · simp [kindFor, ht, hdrift]
    · simp [kindFor, hr, ht, hdrift]
    · simp [kindFor, hr, ht, hpos.ne']
  | opening =>
    rcases h with ⟨ht, rfl, -⟩ | ⟨t, ht, hne, rfl, -⟩
    · simp [kindFor, ht]
    · simp [kindFor, ht, hne]

theorem timeFor_of_moveIs {stroke timer : Nat} {k : MoveKind} (h : moveIs d p stroke k timer) :
    timeFor d k p stroke = timer := by
  cases d with
  | closing =>
    rcases h with ⟨-, rfl, rfl⟩ | ⟨-, -, -, rfl, rfl⟩ | ⟨-, t, ht, -, rfl, rfl⟩
    · rfl
    · rfl
    · simp [timeFor, ht]
  | opening =>
    rcases h with ⟨-, rfl, rfl⟩ | ⟨t, ht, -, rfl, rfl⟩
    · rfl
    · simp [timeFor, ht]

/-- The move that a grant to channel `c` of the stroke starts in a direction (R103). -/
def grantedMove (d : MoveDir) (k : MoveKind) (timer stroke : Nat) (p : Position) (clim : Bool) : Move where
  dir := d
  kind := k
  timer := timer
  elapsed := 0
  stroke := stroke
  check := if d = .opening ∧ p.known = true ∧ p.est = 0 ∧ clim = true then some (stroke * 100) else none

theorem newMove_eq {k : MoveKind} {timer : Nat} (ho : s.outlet c = some o) (hp : p = s.position c)
    (h : moveIs d p o.fixed.strokeS k timer) : newMove d c s = grantedMove d k timer o.fixed.strokeS p (s.climActive c) := by
  have hstroke : strokeOf c s = o.fixed.strokeS := by simp [strokeOf, ho]
  subst hp
  simp only [newMove, hstroke, kindFor_of_moveIs h, timeFor_of_moveIs h]
  rfl

/-! ### Move starts (R103) -/

theorem startMove_bothLimits (hcl : s.climActive c = true) (hol : s.olimActive c = true) :
    startMove arb d c s = faultStop arb true c .bothLimits s := by
  simp [startMove, hcl, hol]

theorem startMove_drives {k : MoveKind} {timer : Nat} (ho : s.outlet c = some o) (hp : p = s.position c)
    (hlim : s.climActive c = false ∨ s.olimActive c = false) (h : moveIs d p o.fixed.strokeS k timer)
    (hend : endsAtOnce k (s.olimActive c) (s.climActive c) = false) : startMove arb d c s =
      s.setPosition c { p with move := some (grantedMove d k timer o.fixed.strokeS p (s.climActive c)) } := by
  have hk : (newMove d c s).kind = k := by rw [newMove_eq ho hp h]; rfl
  rw [startMove, if_neg (by rcases hlim with h | h <;> simp [h]), if_neg (by rw [hk, hend]; simp), newMove_eq ho hp h, hp]
  rfl

theorem startMove_completes (hlim : s.climActive c = false ∨ s.olimActive c = false)
    (hend : endsAtOnce (kindFor d (s.position c)) (s.olimActive c) (s.climActive c) = true) : startMove arb d c s =
      completeMove arb (newMove d c s) (if kindFor d (s.position c) = .toOpen then 1000 else 0) true c s := by
  rw [startMove, if_neg (by rcases hlim with h | h <;> simp [h])]
  exact if_pos hend

/-! ### A grant to the only entry (R102) -/

/-- Channel `c` is still, unpaused and unqueued, no other channel waits, and a slot is free for it. -/
structure State.readyFor (s : State) (c : Channel) : Prop where
  closing : s.drive.closing = []
  opening : s.drive.opening = []
  slot : s.slotFree = true
  move : (s.position c).move = none
  pause : (s.position c).pause = none
  handedOff : s.handedOff c = false
  bho : s.handoff.bho.get (bankOf c) = false

theorem slotFree_of_slotsHeld_le {t : State} (h : t.slotsHeld ≤ s.slotsHeld) (hf : s.slotFree = true) : t.slotFree = true := by
  simp only [State.slotFree, decide_eq_true_eq] at hf ⊢
  exact lt_of_le_of_lt h hf

theorem State.readyFor.setPosition (h : s.readyFor c) (hm : q.move = none) (hq : q.pause = none) :
    (s.setPosition c q).readyFor c where
  closing := h.closing
  opening := h.opening
  slot := slotFree_of_slotsHeld_le (slotsHeld_setPosition_mono (by simp [hm])) h.slot
  move := by rw [State.position_setPosition_self, hm]
  pause := by rw [State.position_setPosition_self, hq]
  handedOff := h.handedOff
  bho := h.bho

theorem grantable_iff : grantable s c = true ↔ ¬s.passedOver c := by
  simp [grantable, State.passedOver, Option.isNone_iff_eq_none]

theorem find?_grantable {front behind : List Channel} (hf : ∀ x ∈ front, s.passedOver x) (hc : ¬s.passedOver c) :
    (front ++ c :: behind).find? (grantable s) = some c := by
  have hnone : front.find? (grantable s) = none := List.find?_eq_none.2 fun x hx => by
    rw [grantable_iff]
    exact fun h => h (hf x hx)
  rw [List.find?_append, hnone, List.find?_cons_of_pos (grantable_iff.2 hc)]
  rfl

theorem nextEntry_closing {front behind : List Channel} (h : s.drive.closing = front ++ c :: behind)
    (hf : ∀ x ∈ front, s.passedOver x) (hc : ¬s.passedOver c) : nextEntry s = some (.closing, c) := by
  rw [nextEntry, h, find?_grantable hf hc]

theorem nextEntry_opening {front behind : List Channel} (h : s.drive.opening = front ++ c :: behind)
    (hcl : ∀ x ∈ s.drive.closing, s.passedOver x) (hf : ∀ x ∈ front, s.passedOver x) (hc : ¬s.passedOver c) :
    nextEntry s = some (.opening, c) := by
  have hnone : s.drive.closing.find? (grantable s) = none := List.find?_eq_none.2 fun x hx => by
    rw [grantable_iff]
    exact fun h => h (hcl x hx)
  rw [nextEntry, hnone, h, find?_grantable hf hc]
  rfl

/-- A grant: the first entry that may be granted leaves the queue, and its move is started. -/
theorem runArbiter_grants {n : Nat} (hf : s.slotFree = true) (hn : nextEntry s = some (d, c))
    (hlen : s.drive.closing.length + s.drive.opening.length = n + 1) :
    runArbiter s = arbiter n (startMove (arbiter n) d c (removeEntry c s)) := by
  rw [runArbiter, hlen, arbiter, if_pos hf, hn]

theorem removeEntry_addEntry (d : MoveDir) (hc : s.drive.closing = []) (ho : s.drive.opening = []) :
    removeEntry c (addEntry d c s) = s := by
  have hsame : s.withQueue [] [] = s := (congrArg₂ s.withQueue hc ho).symm
  rw [addEntry_empty d c hc ho, removeEntry_eq_withQueue]
  cases d <;> simpa [State.withQueue] using hsame

/-- The only entry is granted the slot that is free, and what the grant leads to finds the queue empty. -/
theorem joinQueue_starts (d : MoveDir) (h : s.readyFor c) : joinQueue runArbiter d c s = startMove (arbiter 0) d c s := by
  have hgrant : ¬(addEntry d c s).passedOver c := by simp [State.passedOver, h.pause, h.bho]
  have hnext : nextEntry (addEntry d c s) = some (d, c) := by
    cases d with
    | closing => exact nextEntry_closing (front := []) (behind := []) (by simp [addEntry, h.closing]) (by simp) hgrant
    | opening =>
      exact nextEntry_opening (front := []) (behind := []) (by simp [addEntry, h.opening])
        (by simp [addEntry, h.closing]) (by simp) hgrant
  have hlen : (addEntry d c s).drive.closing.length + (addEntry d c s).drive.opening.length = 0 + 1 := by
    rw [addEntry_empty d c h.closing h.opening]
    cases d <;> rfl
  rw [joinQueue_joins h.handedOff, runArbiter_grants (by rw [State.slotFree, addEntry_slotsHeld]; exact h.slot) hnext hlen,
    removeEntry_addEntry d h.closing h.opening]
  rfl

/-! ### Needs of a still channel (R97 to R101) -/

theorem filter_unqueued {queue : List Channel} (h : c ∉ queue) : (queue.filter fun x => x ≠ c) = queue :=
  List.filter_eq_self.2 fun x hx => by simpa using ne_of_mem_of_not_mem hx h

theorem removeEntry_unqueued (hc : c ∉ s.drive.closing) (ho : c ∉ s.drive.opening) : removeEntry c s = s := by
  rw [removeEntry_eq_withQueue, filter_unqueued hc, filter_unqueued ho]
  rfl

/-- Without a need the channel has no entry after the decision (R101). -/
theorem applyNeed_none (hn : moveNeed c s = none) : applyNeed arb c s = removeEntry c s := by
  by_cases hq : s.queuedTier c = none
  · have hout := queuedTier_eq_none.1 hq
    simp only [List.mem_append, not_or] at hout
    rw [applyNeed_idle hq hn, removeEntry_unqueued hout.1 hout.2]
  · exact applyNeed_leaves hq hn

/-- A need of a channel that does not wait in its tier joins it, and leaves the other (R97, R101). -/
theorem applyNeed_enters (hn : moveNeed c s = some d) (hq : s.queuedTier c ≠ some d) :
    applyNeed arb c s = joinQueue arb d c (removeEntry c s) := by
  cases hq' : s.queuedTier c with
  | none =>
    have hout := queuedTier_eq_none.1 hq'
    simp only [List.mem_append, not_or] at hout
    rw [applyNeed_joins hq' hn, removeEntry_unqueued hout.1 hout.2]
  | some q => exact applyNeed_changes hq' hn fun e => hq (e ▸ hq')

/-- A homing request to a still channel is a decision with HOME_REQ set (R98, R99). -/
theorem requestHoming_still (ho : s.outlet c = some o) (hm : (s.position c).move = none)
    (hq : q = { s.position c with homeReq := true }) : requestHoming c s = applyNeed runArbiter c (s.setPosition c q) := by
  have hset : (s.modifyPosition c fun p => { p with homeReq := true }) = s.setPosition c q := by rw [hq]; rfl
  have hpos : (s.setPosition c q).position c = q := State.position_setPosition_self ..
  have hmove : q.move = none := by rw [hq, hm]
  have hneed : moveNeed c (s.setPosition c q) = some .closing := moveNeed_homing ho (by rw [hpos, hq])
  simp only [requestHoming, homingRequest, applyNeed, hset, hpos, hmove, hneed]
  cases (s.setPosition c q).queuedTier c with
  | none => rfl
  | some tier => cases tier <;> rfl

/-! ### Needs of a still channel that nobody waits with -/

theorem State.readyFor.applyNeed_starts (h : s.readyFor c) (hn : moveNeed c s = some d) :
    applyNeed runArbiter c s = startMove (arbiter 0) d c s := by
  rw [applyNeed_joins (queuedTier_eq_none.2 (by simp [h.closing, h.opening])) hn, joinQueue_starts d h]

theorem requestHoming_starts (h : s.readyFor c) (ho : s.outlet c = some o)
    (hq : q = { s.position c with homeReq := true }) :
    requestHoming c s = startMove (arbiter 0) .closing c (s.setPosition c q) := by
  have hready : (s.setPosition c q).readyFor c := h.setPosition (hq ▸ h.move) (hq ▸ h.pause)
  rw [requestHoming_still ho h.move hq]
  refine hready.applyNeed_starts (moveNeed_homing ho ?_)
  rw [State.position_setPosition_self, hq]

/-- A target to a still channel is a decision with it stored (R97). -/
theorem giveTarget_decides {t : Nat} (hm : (s.position c).move = none) (hr : (s.position c).homeReq = false)
    (hq : q = { s.position c with target := some t }) : giveTarget c t s = applyNeed runArbiter c (s.setPosition c q) :=
  hq ▸ giveTarget_still t hm hr

theorem moveNeed_given {t deadband : Nat} {need : Option MoveDir} (ho : s.outlet c = some o)
    (hr : (s.position c).homeReq = false) (hq : q = { s.position c with target := some t }) (he : (s.position c).est ≤ 1000)
    (hd : deadband = (s.pool o.fixed.pool).settings.deadband)
    (h : needIs need t (s.position c).est deadband (s.olimActive c) (s.climActive c)) :
    moveNeed c (s.setPosition c q) = need := by
  subst hq
  exact moveNeed_written (q := { s.position c with target := some t }) ho hr rfl he hd h

theorem giveTarget_starts {t deadband : Nat} (h : s.readyFor c) (ho : s.outlet c = some o)
    (hr : (s.position c).homeReq = false) (hq : q = { s.position c with target := some t }) (he : (s.position c).est ≤ 1000)
    (hd : deadband = (s.pool o.fixed.pool).settings.deadband)
    (hneed : needIs (some d) t (s.position c).est deadband (s.olimActive c) (s.climActive c)) :
    giveTarget c t s = startMove (arbiter 0) d c (s.setPosition c q) := by
  have hready : (s.setPosition c q).readyFor c := h.setPosition (hq ▸ h.move) (hq ▸ h.pause)
  rw [giveTarget_decides h.move hr hq, hready.applyNeed_starts (moveNeed_given ho hr hq he hd hneed)]

theorem giveTarget_rests {t deadband : Nat} (h : s.readyFor c) (ho : s.outlet c = some o)
    (hr : (s.position c).homeReq = false) (hq : q = { s.position c with target := some t }) (he : (s.position c).est ≤ 1000)
    (hd : deadband = (s.pool o.fixed.pool).settings.deadband)
    (hneed : needIs none t (s.position c).est deadband (s.olimActive c) (s.climActive c)) :
    giveTarget c t s = s.setPosition c q := by
  have hready : (s.setPosition c q).readyFor c := h.setPosition (hq ▸ h.move) (hq ▸ h.pause)
  rw [giveTarget_decides h.move hr hq]
  exact applyNeed_idle (queuedTier_eq_none.2 (by simp [hready.closing, hready.opening]))
    (moveNeed_given ho hr hq he hd hneed)

/-! ### Moves that a grant completes at once (R103, R104) -/

theorem completed_arbiter_zero {est : Nat} {known : Bool} (hc : s.drive.closing = []) (ho : s.drive.opening = []) :
    completed (arbiter 0) m est known c s = completed runArbiter m est known c s := by
  have harb : runArbiter (s.modifyPosition c (completedPosition m est known)) =
      arbiter 0 (s.modifyPosition c (completedPosition m est known)) := runArbiter_empty hc ho
  rw [completed, completed, harb]

theorem completeMove_arbiter_zero {est : Nat} {known : Bool} (hc : s.drive.closing = []) (ho : s.drive.opening = [])
    (hn : moveNeed c (completed runArbiter m est known c s) = none) :
    completeMove (arbiter 0) m est known c s = completed runArbiter m est known c s := by
  rw [← completed_arbiter_zero hc ho] at hn ⊢
  exact completeMove_rests hn

/-- A report of both limits asks for no homing, so the arbiter has no part in it. -/
theorem faultReport_bothLimits_arb (arb' : State → State) (c : Channel) (s : State) :
    faultReport arb c .bothLimits s = faultReport arb' c .bothLimits s := by
  cases ho : s.outlet c with
  | none => simp [faultReport, ho]
  | some o =>
    by_cases hs : o.state = .held ∨ o.state = .faulted
    · rw [faultReport_silent arb _ ho hs, faultReport_silent arb' _ ho hs]
    · rw [faultReport_bothLimits_reported arb ho hs, faultReport_bothLimits_reported arb' ho hs]

theorem faultStop_arbiter_zero (hc : s.drive.closing = []) (ho : s.drive.opening = []) :
    faultStop (arbiter 0) true c .bothLimits s = faultStop runArbiter true c .bothLimits s := by
  have harb {p : Position} : runArbiter (removeEntry c (s.setPosition c p)) = removeEntry c (s.setPosition c p) :=
    release_grants_none (held := true) (.inr (by simp [hc, ho]))
  exact (faultReport_bothLimits_arb runArbiter c _).trans (congrArg (faultReport runArbiter c .bothLimits) harb.symm)

/-- A homing granted with CLIM made completes at once, for a request or where the target is 0 or none (R114). -/
theorem startMove_homes (hc : s.drive.closing = []) (hop : s.drive.opening = []) (ho : s.outlet c = some o)
    (hclim : s.climActive c = true) (holim : s.olimActive c = false) (hk : kindFor .closing (s.position c) = .homing)
    (ht : (s.position c).homeReq = true ∨ (s.position c).target = some 0 ∨ (s.position c).target = none) :
    startMove (arbiter 0) .closing c s = (s.setPosition c { s.position c with
      est := 0, known := true, target := if (s.position c).homeReq = true then some 0 else (s.position c).target, move := none,
      homeReq := false, travel := 0, drift := false }).setOutlet c (some (homedOutlet o)) := by
  have hm : (newMove .closing c s).kind = .homing := hk
  rw [startMove_completes (.inr holim) (by rw [hk]; exact hclim),
    completeMove_arbiter_zero hc hop (homed_rests _ _ hc hop ho hm hclim ht), completed_homing _ _ hc hop ho hm,
    completedPosition_homing _ _ _ hm]

/-- A move granted with the limit it ends on made completes at once, where the position it ends in meets its target (R103). -/
theorem startMove_ends {t deadband : Nat} (hc : s.drive.closing = []) (hop : s.drive.opening = []) (ho : s.outlet c = some o)
    (hlim : s.climActive c = false ∨ s.olimActive c = false) (hk : kindFor d (s.position c) ≠ .homing)
    (hend : endsAtOnce (kindFor d (s.position c)) (s.olimActive c) (s.climActive c) = true)
    {est : Nat} (hest : est = if kindFor d (s.position c) = .toOpen then 1000 else 0) (hr : (s.position c).homeReq = false)
    (ht : (s.position c).target = some t) (hd : deadband = (s.pool o.fixed.pool).settings.deadband)
    (hneed : needIs none t est deadband (s.olimActive c) (s.climActive c)) {travel : Nat}
    (htravel : travel = min 65535 (s.position c).travel)
    (hq : q = { s.position c with
      est := est, known := true, move := none, travel := travel, drift := (s.position c).drift || decide (4000 ≤ travel) }) :
    startMove (arbiter 0) d c s = s.setPosition c q := by
  have hm : (newMove d c s).kind ≠ .homing := hk
  have hdriven : (newMove d c s).elapsed / (newMove d c s).stroke = 0 := Nat.zero_div _
  have hstate : completed runArbiter (newMove d c s) est true c s = s.setPosition c q :=
    completed_driven hc hop hm rfl (by rw [hdriven, Nat.add_zero, htravel]) hq
  have hrests : moveNeed c (s.setPosition c q) = none := by
    subst hq
    refine moveNeed_written ho hr ht ?_ hd hneed
    rw [hest]
    split <;> simp
  rw [startMove_completes hlim hend, ← hest, completeMove_arbiter_zero hc hop (hstate ▸ hrests), hstate]

/-! ### What a need of such a channel comes to (R103) -/

theorem requestHoming_bothLimits (h : s.readyFor c) (ho : s.outlet c = some o)
    (hcl : s.climActive c = true) (hol : s.olimActive c = true) (hq : q = { s.position c with homeReq := true }) :
    requestHoming c s = faultStop runArbiter true c .bothLimits (s.setPosition c q) := by
  rw [requestHoming_starts h ho hq, startMove_bothLimits (s := s.setPosition c q) hcl hol]
  exact faultStop_arbiter_zero h.closing h.opening

theorem giveTarget_bothLimits {t deadband : Nat} (h : s.readyFor c) (ho : s.outlet c = some o)
    (hr : (s.position c).homeReq = false) (hq : q = { s.position c with target := some t }) (he : (s.position c).est ≤ 1000)
    (hd : deadband = (s.pool o.fixed.pool).settings.deadband) (hcl : s.climActive c = true) (hol : s.olimActive c = true)
    (hneed : needIs (some d) t (s.position c).est deadband (s.olimActive c) (s.climActive c)) :
    giveTarget c t s = faultStop runArbiter true c .bothLimits (s.setPosition c q) := by
  rw [giveTarget_starts h ho hr hq he hd hneed, startMove_bothLimits (s := s.setPosition c q) hcl hol]
  exact faultStop_arbiter_zero h.closing h.opening

theorem requestHoming_drives (h : s.readyFor c) (ho : s.outlet c = some o) (hcl : s.climActive c = false) :
    requestHoming c s = s.setPosition c { s.position c with
      homeReq := true, move := some (grantedMove .closing .homing (o.fixed.strokeS * 1250) o.fixed.strokeS (s.position c) false) } := by
  have hpos := State.position_setPosition_self s c { s.position c with homeReq := true }
  have hmove : moveIs .closing { s.position c with homeReq := true } o.fixed.strokeS .homing (o.fixed.strokeS * 1250) :=
    .inl ⟨.inl rfl, rfl, rfl⟩
  rw [requestHoming_starts h ho rfl]
  refine (startMove_drives (s := s.setPosition c _) ho hpos.symm (.inl hcl) hmove hcl).trans ?_
  rw [State.setPosition_setPosition, State.setPosition_climActive, hcl]
  rfl

theorem giveTarget_drives {t deadband timer : Nat} {k : MoveKind} (h : s.readyFor c) (ho : s.outlet c = some o)
    (hr : (s.position c).homeReq = false) (he : (s.position c).est ≤ 1000)
    (hd : deadband = (s.pool o.fixed.pool).settings.deadband) (hlim : s.climActive c = false ∨ s.olimActive c = false)
    (hneed : needIs (some d) t (s.position c).est deadband (s.olimActive c) (s.climActive c))
    (hmove : moveIs d { s.position c with target := some t } o.fixed.strokeS k timer)
    (hend : endsAtOnce k (s.olimActive c) (s.climActive c) = false) :
    giveTarget c t s = s.setPosition c { s.position c with
      target := some t, move := some (grantedMove d k timer o.fixed.strokeS (s.position c) (s.climActive c)) } := by
  have hpos := State.position_setPosition_self s c { s.position c with target := some t }
  rw [giveTarget_starts h ho hr rfl he hd hneed]
  refine (startMove_drives (s := s.setPosition c _) ho hpos.symm hlim hmove hend).trans ?_
  rw [State.setPosition_setPosition, State.setPosition_climActive]
  rfl

theorem requestHoming_homes (h : s.readyFor c) (ho : s.outlet c = some o) (hr : (s.position c).homeReq = false)
    (hcl : s.climActive c = true) (hol : s.olimActive c = false) : requestHoming c s = (s.setPosition c { s.position c with
      est := 0, known := true, target := some 0, travel := 0, drift := false }).setOutlet c (some (homedOutlet o)) := by
  have hpos := State.position_setPosition_self s c { s.position c with homeReq := true }
  rw [requestHoming_starts h ho rfl]
  refine (startMove_homes (s := s.setPosition c _) h.closing h.opening ho hcl hol (by rw [hpos]; rfl) (by rw [hpos]; simp)).trans ?_
  rw [State.setPosition_setPosition, hpos, ← h.move]
  simp [hr]

theorem giveTarget_homes {deadband : Nat} (h : s.readyFor c) (ho : s.outlet c = some o)
    (hr : (s.position c).homeReq = false) (he : (s.position c).est ≤ 1000)
    (hd : deadband = (s.pool o.fixed.pool).settings.deadband) (hcl : s.climActive c = true) (hol : s.olimActive c = false)
    (hneed : needIs (some .closing) 0 (s.position c).est deadband (s.olimActive c) (s.climActive c))
    (hdrift : (s.position c).drift = true) : giveTarget c 0 s = (s.setPosition c { s.position c with
      target := some 0, est := 0, known := true, travel := 0, drift := false }).setOutlet c (some (homedOutlet o)) := by
  have hpos := State.position_setPosition_self s c { s.position c with target := some 0 }
  rw [giveTarget_starts h ho hr rfl he hd hneed]
  refine (startMove_homes (s := s.setPosition c _) h.closing h.opening ho hcl hol (by rw [hpos]; simp [kindFor, hdrift])
    (by rw [hpos]; simp)).trans ?_
  rw [State.setPosition_setPosition, hpos, ← h.move]
  simp [hr]

theorem giveTarget_ends {t deadband travel est : Nat} (h : s.readyFor c) (ho : s.outlet c = some o)
    (hr : (s.position c).homeReq = false) (he : (s.position c).est ≤ 1000)
    (hd : deadband = (s.pool o.fixed.pool).settings.deadband) (hlim : s.climActive c = false ∨ s.olimActive c = false)
    (hneed : needIs (some d) t (s.position c).est deadband (s.olimActive c) (s.climActive c))
    (hk : kindFor d { s.position c with target := some t } ≠ .homing)
    (hend : endsAtOnce (kindFor d { s.position c with target := some t }) (s.olimActive c) (s.climActive c) = true)
    (hest : est = if kindFor d { s.position c with target := some t } = .toOpen then 1000 else 0)
    (hmet : needIs none t est deadband (s.olimActive c) (s.climActive c)) (htravel : travel = min 65535 (s.position c).travel) :
    giveTarget c t s = s.setPosition c { s.position c with
      target := some t, est := est, known := true, travel := travel,
      drift := (s.position c).drift || decide (4000 ≤ travel) } := by
  have hpos := State.position_setPosition_self s c { s.position c with target := some t }
  rw [giveTarget_starts h ho hr rfl he hd hneed]
  refine (startMove_ends (s := s.setPosition c _) h.closing h.opening ho hlim (by rw [hpos]; exact hk) (by rw [hpos]; exact hend)
    (by rw [hpos]; exact hest) (by rw [hpos]; exact hr) (by rw [hpos]) hd hmet (by rw [hpos]) rfl).trans ?_
  rw [State.setPosition_setPosition, hpos, ← h.move, htravel]

end Sys2Proof.Machine
end

section
/-! Needs of driving and of waiting channels (R97, R99, R100, R110, R111), the arbiter's order (R102), and what a need comes to. -/

namespace Sys2Proof.Machine

variable {arb : State → State} {s : State} {c : Channel} {o : Outlet} {p q : Position} {m : Move} {d : MoveDir}

/-! ### Needs of a driving channel (R99, R110, R111) -/

/-- The estimate and the travel of the leg driven (R109). -/
theorem estimateLeg_driving {driven est : Nat} (hm : p.move = some m) (hd : driven = m.elapsed / m.stroke)
    (hcl : m.dir = .closing → est = p.est - driven) (hop : m.dir = .opening → est = min 1000 (p.est + driven)) :
    estimateLeg p = { p with
      est := est, travel := min 65535 (p.travel + driven), drift := p.drift || decide (4000 ≤ min 65535 (p.travel + driven)),
      move := some { m with elapsed := 0 } } := by
  have hest : estimate p.est m = est := by
    unfold estimate Move.driven
    cases hdir : m.dir with
    | closing => rw [hcl hdir, hd]
    | opening => rw [hop hdir, hd]
  simp only [estimateLeg, hm, hest, hd]
  rfl

theorem estimateLeg_target (p : Position) (t : Option Nat) :
    estimateLeg { p with target := t } = { estimateLeg p with target := t } := by
  cases hm : p.move with
  | none => simp [estimateLeg, hm]
  | some m =>
    simp only [estimateLeg, hm]
    rfl

theorem estimateLeg_homeReq (p : Position) (r : Bool) :
    estimateLeg { p with homeReq := r } = { estimateLeg p with homeReq := r } := by
  cases hm : p.move with
  | none => simp [estimateLeg, hm]
  | some m =>
    simp only [estimateLeg, hm]
    rfl

/-- A homing request to a channel that homes is noted (R99). -/
theorem requestHoming_homing (hm : (s.position c).move = some m) (hk : m.kind = .homing)
    (hq : q = { s.position c with homeReq := true }) : requestHoming c s = s.setPosition c q := by
  have hset : (s.modifyPosition c fun p => { p with homeReq := true }) = s.setPosition c q := by rw [hq]; rfl
  have hmove : q.move = some m := by rw [hq, hm]
  simp only [requestHoming, homingRequest, hset, State.position_setPosition_self, hmove, hk, if_true]

theorem requestHoming_renews (hm : (s.position c).move = some m) (hk : m.kind ≠ .homing) (hd : m.dir = .closing)
    (hq : q = { s.position c with homeReq := true }) :
    requestHoming c s = renewMove c (s.setPosition c (estimateLeg q)) := by
  have hset : (s.modifyPosition c fun p => { p with homeReq := true }) = s.setPosition c q := by rw [hq]; rfl
  have hmove : q.move = some m := by rw [hq, hm]
  simp only [requestHoming, homingRequest, hset, State.position_setPosition_self, hmove, hk, if_false, hd,
    State.modifyPosition_setPosition]

theorem requestHoming_reverses (hm : (s.position c).move = some m) (hk : m.kind ≠ .homing) (hd : m.dir = .opening)
    (hq : q = { s.position c with homeReq := true }) :
    requestHoming c s = reverseMove runArbiter .closing c (s.setPosition c (estimateLeg q)) := by
  have hset : (s.modifyPosition c fun p => { p with homeReq := true }) = s.setPosition c q := by rw [hq]; rfl
  have hmove : q.move = some m := by rw [hq, hm]
  simp only [requestHoming, homingRequest, hset, State.position_setPosition_self, hmove, hk, if_false, hd,
    State.modifyPosition_setPosition]

theorem retarget_rests (h : moveNeed c (s.modifyPosition c estimateLeg) = none) :
    retarget m c s = runArbiter ((s.modifyPosition c estimateLeg).modifyPosition c fun p => { p with move := none }) := by
  simp only [retarget, h]

theorem retarget_renews (h : moveNeed c (s.modifyPosition c estimateLeg) = some m.dir) :
    retarget m c s = renewMove c (s.modifyPosition c estimateLeg) := by
  simp only [retarget, h, if_true]

theorem retarget_reverses (h : moveNeed c (s.modifyPosition c estimateLeg) = some d) (hd : d ≠ m.dir) :
    retarget m c s = reverseMove runArbiter d c (s.modifyPosition c estimateLeg) := by
  simp only [retarget, h, hd, if_false]

/-- The move of a record just written, renewed in its direction with the kind and time of its need (R110). -/
theorem renewMove_setPosition {k : MoveKind} {timer : Nat} (hm : q.move = some m) (h : moveIs m.dir q m.stroke k timer) :
    renewMove c (s.setPosition c q) =
      s.setPosition c { q with move := some { m with kind := k, timer := timer, check := none } } := by
  rw [renewMove, State.modifyPosition_setPosition]
  simp only [hm, kindFor_of_moveIs h, timeFor_of_moveIs h]

/-- A channel whose record has just been written is reversed where nobody waits (R111). -/
theorem reverseMove_setPosition (d : MoveDir) (hc : s.drive.closing = []) (ho : s.drive.opening = [])
    (hh : s.handedOff c = false) : reverseMove runArbiter d c (s.setPosition c q) =
      (s.setPosition c { q with move := none, pause := some 2000 }).withQueue
        (if d = .closing then [c] else []) (if d = .opening then [c] else []) := by
  have harb : runArbiter (s.setPosition c { q with move := none }) = s.setPosition c { q with move := none } :=
    runArbiter_empty hc ho
  rw [reverseMove, State.modifyPosition_setPosition, harb]
  simp only [State.modifyPosition_setPosition]
  exact joinQueue_paused d hc ho hh (by simp)

/-! ### Needs of a channel that does not drive, with others waiting (R97 to R101) -/

theorem joinQueue_requeues {closing opening : List Channel} (hh : s.handedOff c = false)
    (hc : closing = (s.drive.closing.filter fun x => x ≠ c) ++ if d = .closing then [c] else [])
    (ho : opening = (s.drive.opening.filter fun x => x ≠ c) ++ if d = .opening then [c] else []) :
    joinQueue runArbiter d c (removeEntry c s) = runArbiter (s.withQueue closing opening) := by
  rw [joinQueue_joins (s := removeEntry c s) hh, hc, ho]
  cases d <;> simp [addEntry, removeEntry, State.withQueue]

theorem queuedTier_ne_closing (h : c ∉ s.drive.closing) : s.queuedTier c ≠ some .closing := by
  unfold State.queuedTier
  split <;> simp_all

theorem queuedTier_ne_opening (h : c ∉ s.drive.opening) : s.queuedTier c ≠ some .opening := by
  unfold State.queuedTier
  split <;> simp_all

/-! ### The arbiter's order (R102) -/

theorem runArbiter_noSlot (h : s.slotFree = false) : runArbiter s = s := by
  unfold runArbiter
  cases s.drive.closing.length + s.drive.opening.length with
  | zero => rfl
  | succ n => rw [arbiter, if_neg (by simp [h])]

theorem filter_granted {front behind : List Channel} (hf : c ∉ front) (hb : c ∉ behind) :
    ((front ++ c :: behind).filter fun x => x ≠ c) = front ++ behind := by
  rw [List.filter_append, List.filter_cons_of_neg (by simp), filter_unqueued hf, filter_unqueued hb]

/-- A grant that starts a move: the arbiter goes on with the entries behind. -/
theorem runArbiter_starts {u : State} {k : MoveKind} {timer : Nat} (hf : s.slotFree = true)
    (hn : nextEntry s = some (d, c)) (hu : removeEntry c s = u)
    (hlen : s.drive.closing.length + s.drive.opening.length = u.drive.closing.length + u.drive.opening.length + 1)
    (ho : s.outlet c = some o) (hp : p = s.position c) (hlim : s.climActive c = false ∨ s.olimActive c = false)
    (hmove : moveIs d p o.fixed.strokeS k timer) (hend : endsAtOnce k (s.olimActive c) (s.climActive c) = false) :
    runArbiter s = runArbiter (u.setPosition c { p with
      move := some (grantedMove d k timer o.fixed.strokeS p (s.climActive c)) }) := by
  subst hu
  rw [runArbiter_grants hf hn hlen, startMove_drives (s := removeEntry c s) ho hp hlim hmove hend]
  rfl

theorem endsAtOnce_eq_false {k : MoveKind} {olim clim : Bool} (hc : (k = .homing ∨ k = .toClosed) → clim = false)
    (ho : k = .toOpen → olim = false) : endsAtOnce k olim clim = false := by
  cases k with
  | homing => exact hc (.inl rfl)
  | toClosed => exact hc (.inr rfl)
  | toOpen => exact ho rfl
  | intermediate => rfl

/-- The move that closes a valve: a drift homing where DRIFT is set (R103, R112). -/
theorem moveIs_zero {stroke : Nat} (hr : p.homeReq = false) (ht : p.target = some 0) :
    moveIs .closing p stroke (if p.drift = true then .homing else .toClosed)
      (if p.drift = true then stroke * 1250 else p.est * stroke + stroke * 250) := by
  cases hdrift : p.drift with
  | true => exact .inl ⟨.inr ⟨ht, hdrift⟩, rfl, rfl⟩
  | false => exact .inr (.inl ⟨hr, ht, hdrift, rfl, rfl⟩)

theorem moveIs_opening {stroke t : Nat} (ht : p.target = some t) :
    moveIs .opening p stroke (if t = 1000 then .toOpen else .intermediate)
      (if t = 1000 then (1000 - p.est) * stroke + stroke * 250 else (t - p.est) * stroke) := by
  by_cases h : t = 1000
  · exact .inl ⟨h ▸ ht, if_pos h, if_pos h⟩
  · exact .inr ⟨t, ht, h, if_neg h, if_neg h⟩

/-! ### What a need comes to -/

/-- Settles O47: at a ready channel the only entry is granted at once; a driving one renews or reverses its leg; the arbiter's first
entry that may be granted leaves the queue. -/
theorem grantedNeedStartsMove : Obligations.GrantedNeedStartsMove := by
  unfold Obligations.GrantedNeedStartsMove
  refine ⟨?_, ?_, ?_, ?_, ?_⟩
  · intro s c o p stroke deadband hcl hop hslot ho hp hm hpause hr hh hb hstroke hdb
    subst hp hstroke
    have ready : s.readyFor c := ⟨hcl, hop, hslot, hm, hpause, hh, hb⟩
    refine ⟨fun hclim holim => ⟨requestHoming_bothLimits ready ho hclim holim rfl, fun t d _ he hneed => ?_⟩,
      fun hlim => ⟨fun hclim => ?_, fun hclim => ?_, fun t travel ht he htravel =>
        ⟨fun h₁ h₂ h₃ h₄ => ?_, fun ht0 hclim => ?_, fun ht0 hclim hfar hdrift => ?_, fun ht0 hclim hfar hdrift => ?_,
          fun ht0 holim hfar => ?_, fun hpos hfar hlt => ?_, fun hfar => ?_⟩⟩⟩
    · exact giveTarget_bothLimits ready ho hr rfl he hdb hclim holim (by rw [hclim, holim]; exact hneed)
    · exact requestHoming_drives ready ho hclim
    · exact requestHoming_homes ready ho hr hclim (hlim.resolve_left (by simp [hclim]))
    · exact giveTarget_rests ready ho hr rfl he hdb ⟨h₁, h₂, h₃, h₄⟩
    · subst ht0
      exact giveTarget_drives ready ho hr he hdb hlim (by simp [needIs, hclim]) (moveIs_zero hr rfl)
        (endsAtOnce_eq_false (fun _ => hclim) (by split <;> simp))
    · subst ht0
      have hkind : kindFor .closing { s.position c with target := some 0 } = .toClosed := by simp [kindFor, hr, hdrift]
      rw [giveTarget_ends ready ho hr he hdb hlim (d := .closing) (est := 0) (by simp [needIs]; omega) (by rw [hkind]; simp)
        (by rw [hkind]; exact hclim) (by rw [hkind]; rfl) (by simp [needIs, hclim]) htravel]
      simp [hdrift]
    · subst ht0
      exact giveTarget_homes ready ho hr he hdb hclim (hlim.resolve_left (by simp [hclim])) (by simp [needIs]; omega) hdrift
    · subst ht0
      have hkind : kindFor .opening { s.position c with target := some 1000 } = .toOpen := by simp [kindFor]
      exact giveTarget_ends ready ho hr he hdb hlim (d := .opening) (est := 1000) (by simp [needIs]; omega)
        (by rw [hkind]; simp) (by rw [hkind]; exact holim) (by rw [hkind]; rfl) (by simp [needIs, holim]) htravel
    · exact giveTarget_drives ready ho hr he hdb hlim (by simp [needIs]; omega)
        (.inr (.inr ⟨hr, t, rfl, hpos, rfl, rfl⟩)) (endsAtOnce_eq_false (by simp) (by simp))
    · have hneed : needIs (some .opening) t (s.position c).est deadband (s.olimActive c) (s.climActive c) := by
        rcases hfar with h | ⟨h, holim⟩
        · simp [needIs]; omega
        · simp [needIs, h, holim]
      have hopen (hk : (if t = 1000 then MoveKind.toOpen else .intermediate) = .toOpen) : s.olimActive c = false := by
        rcases hfar with h | ⟨-, holim⟩
        · simp [show t ≠ 1000 by omega] at hk
        · exact holim
      rw [giveTarget_drives ready ho hr he hdb hlim hneed (moveIs_opening rfl)
        (endsAtOnce_eq_false (by split <;> simp) hopen)]
      simp [grantedMove]
  · intro s c o p q m driven deadband hcl hop ho hp hm hh hdb hdriven he hclosing hopening hq
    subst hp
    have hleg : estimateLeg (s.position c) = { q with move := some { m with elapsed := 0 } } := by
      rw [estimateLeg_driving hm hdriven hclosing hopening, hq]
    refine ⟨fun hk => requestHoming_homing hm hk rfl, fun hk hd => ?_, fun hk hd => ?_, fun t ht =>
      ⟨giveTarget_stored hm, fun hk hr hne => ?_⟩⟩
    · rw [requestHoming_renews hm hk hd rfl, estimateLeg_homeReq, hleg]
      refine renewMove_setPosition (m := { m with elapsed := 0 }) rfl ?_
      rw [hd]
      exact .inl ⟨.inl rfl, rfl, rfl⟩
    · rw [requestHoming_reverses hm hk hd rfl, estimateLeg_homeReq, hleg]
      exact reverseMove_setPosition .closing hcl hop hh
    have hest : (s.setPosition c { s.position c with target := some t }).modifyPosition c estimateLeg =
        s.setPosition c { q with target := some t, move := some { m with elapsed := 0 } } := by
      rw [State.modifyPosition_setPosition, estimateLeg_target, hleg]
    have hrange : q.est ≤ 1000 := by
      cases hdir : m.dir with
      | closing => rw [hclosing hdir]; omega
      | opening => rw [hopening hdir]; omega
    have hneed {need : Option MoveDir} (h : needIs need t q.est deadband (s.olimActive c) (s.climActive c)) :
        moveNeed c ((s.setPosition c { s.position c with target := some t }).modifyPosition c estimateLeg) = need := by
      rw [hest]
      exact moveNeed_written (q := { q with target := some t, move := some { m with elapsed := 0 } }) ho
        (by rw [hq]; exact hr) rfl hrange hdb h
    rw [giveTarget_retargets hm hk hr hne]
    refine ⟨fun hnone => ?_, fun d hsome => ⟨?_, fun hd => ?_⟩⟩
    · rw [retarget_rests (hneed hnone), hest, State.modifyPosition_setPosition]
      exact runArbiter_empty hcl hop
    · rintro rfl k timer hmove
      rw [retarget_renews (hneed hsome), hest]
      exact renewMove_setPosition (m := { m with elapsed := 0 }) rfl hmove
    · rw [retarget_reverses (hneed hsome) hd, hest]
      exact reverseMove_setPosition d hcl hop hh
  · intro s c t hm hh hc hop
    exact giveTarget_handedOff t hm hh (by simp [hc, hop])
  · intro s c o p deadband ho hp hm hh hone hdb
    subst hp
    have hout (h : c ∈ s.drive.opening) : c ∉ s.drive.closing := fun hc => hone hc h
    refine ⟨fun u hu => ?_, fun t u ht he hu => ⟨fun hr => hu ▸ giveTarget_homeReq t hm hr, fun hr => ?_⟩⟩
    · have hneed : moveNeed c u = some .closing := by
        rw [hu]
        exact moveNeed_homing ho (by rw [State.position_setPosition_self])
      rw [requestHoming_still ho hm rfl, ← hu]
      subst hu
      refine ⟨fun hc => applyNeed_keeps (queuedTier_closing hc) hneed, fun hc => ?_⟩
      rw [applyNeed_enters hneed (queuedTier_ne_closing hc)]
      exact joinQueue_requeues hh (congrArg (· ++ [c]) (filter_unqueued hc).symm) (List.append_nil _).symm
    have hneed {need : Option MoveDir} (h : needIs need t (s.position c).est deadband (s.olimActive c) (s.climActive c)) :
        moveNeed c u = need := by
      rw [hu]
      exact moveNeed_given ho hr rfl he hdb h
    rw [giveTarget_decides hm hr rfl, ← hu]
    subst hu
    refine ⟨fun hn => applyNeed_none (hneed hn), fun hn => ⟨fun hc => ?_, fun hc => ?_⟩, fun hn => ⟨fun hc => ?_, fun hc => ?_⟩⟩
    · exact applyNeed_keeps (queuedTier_closing hc) (hneed hn)
    · rw [applyNeed_enters (hneed hn) (queuedTier_ne_closing hc)]
      exact joinQueue_requeues hh (congrArg (· ++ [c]) (filter_unqueued hc).symm) (List.append_nil _).symm
    · exact applyNeed_keeps (queuedTier_opening (hout hc) hc) (hneed hn)
    · rw [applyNeed_enters (hneed hn) (queuedTier_ne_opening hc)]
      exact joinQueue_requeues hh (List.append_nil _).symm (congrArg (· ++ [c]) (filter_unqueued hc).symm)
  · intro s
    refine ⟨fun h => h.elim runArbiter_noSlot runArbiter_of_passedOver, ?_⟩
    intro c o p d k timer front behind u hslot ho hp hc hfront hbehind hpassed hqueue hlim hmove hclim holim
    have hend := endsAtOnce_eq_false hclim holim
    rcases hqueue with ⟨rfl, hq, hout, rfl⟩ | ⟨rfl, hq, hout, hcl, rfl⟩
    · have hu : removeEntry c s = s.withQueue (front ++ behind) s.drive.opening := by
        rw [removeEntry_eq_withQueue, hq, filter_granted hfront hbehind, filter_unqueued hout]
      refine runArbiter_starts hslot (nextEntry_closing hq hpassed hc) hu ?_ ho hp hlim hmove hend
      rw [hq]
      simp [State.withQueue]
      omega
    · have hu : removeEntry c s = s.withQueue s.drive.closing (front ++ behind) := by
        rw [removeEntry_eq_withQueue, hq, filter_granted hfront hbehind, filter_unqueued hout]
      refine runArbiter_starts hslot (nextEntry_opening hq hcl hpassed hc) hu ?_ ho hp hlim hmove hend
      rw [hq]
      simp [State.withQueue]
      omega

end Sys2Proof.Machine
end

section
/-! The steps on one outlet fail in turn (R152, R153): each waiting step leaves the claim queue and its run ends; the holder's step then
gives up a claim that nobody waits for. -/

namespace Sys2Proof.Machine

variable {s : State} {c : Channel} {h : Holder} {why : FailReason} {i : SlotId} {n : Nat} {ts : List DutyTask}

/-- The run of slot `i` is on a step on outlet `c`, and ends where that fails. -/
def State.endsOn (s : State) (c : Channel) (i : SlotId) : Prop :=
  (s.slot i).continueOnFault = false ∧ ∃ st : Step, (s.slot i).currentStep = some st ∧ st.channel = c

theorem State.endsOn_congr {t : State} (h : t.slot i = s.slot i) : t.endsOn c i ↔ s.endsOn c i := by
  rw [State.endsOn, State.endsOn, h]

theorem runTasks_cons (task : DutyTask) : runTasks (n + 1) (task :: ts) s =
    runTasks n ((runTask task s).2 ++ ts) (runTask task s).1 := rfl

theorem settleFailure_ends (hc : (s.slot i).continueOnFault = false) :
    settleFailure i why s = (s.runFaulted i why, []) := by
  have hpos (x : ProgSlot) : (s.setSlot i x).slot i = x := (State.slot_setSlot ..).trans (if_pos rfl)
  have hends : settleFailure i why s = (raise .program (((recordResult i (.failed why) s).modifySlot i fun x =>
      { x with faultsSeen := true, phase := .none }).modifySlot i fun x => { x with state := .faulted }), []) :=
    if_neg (by simp [hc])
  rw [hends]
  simp only [recordResult, State.modifySlot, hpos, State.setSlot_setSlot]
  rfl

/-! ### One step (R153) -/

/-- The failure of a step that waits: its entry leaves the claim queue, and its run ends. -/
def failWaiter (c : Channel) (why : FailReason) (s : State) (i : SlotId) : State :=
  (s.setClaim c { s.claim c with waiters := (s.claim c).waiters.filter fun x => x ≠ i }).runFaulted i why

theorem runTasks_failWaiter (he : s.endsOn c i) (hh : (s.claim c).holder = some h) (hi : i ≠ h.slot) :
    runTasks (n + 2) (.fail i why :: ts) s = runTasks n ts (failWaiter c why s i) := by
  obtain ⟨hc, st, hst, rfl⟩ := he
  have hrelease : releaseStep i s = (s.setClaim st.channel
      { s.claim st.channel with waiters := (s.claim st.channel).waiters.filter fun x => x ≠ i }, []) := by
    simp [releaseStep, hst, hh, Ne.symm hi]
  rw [runTasks_cons]
  simp only [runTask, failStep, hrelease, List.nil_append, List.cons_append]
  rw [runTasks_cons]
  simp only [runTask]
  rw [settleFailure_ends (by exact hc)]
  rfl

/-- The failure of the step that holds a claim nobody waits for. -/
theorem runTasks_failHolder (he : s.endsOn c h.slot) (hh : s.claim c = { holder := some h, waiters := [] }) :
    runTasks (n + 3) (.fail h.slot why :: ts) s =
      runTasks n ts ((s.setClaim c { holder := none, waiters := [] }).runFaulted h.slot why) := by
  obtain ⟨hc, st, hst, rfl⟩ := he
  have hrelease : releaseStep h.slot s = (s.setClaim st.channel { holder := none, waiters := [] }, [.passOn st.channel]) := by
    simp [releaseStep, hst, hh]
  rw [runTasks_cons]
  simp only [runTask, failStep, hrelease, List.nil_append, List.cons_append]
  rw [runTasks_cons]
  simp only [runTask, passOnClaim, State.claim_setClaim, if_true, List.nil_append]
  rw [runTasks_cons]
  simp only [runTask]
  rw [settleFailure_ends (by exact hc)]
  rfl

/-! ### The waiting steps -/

theorem failWaiter_slot (s : State) (i j : SlotId) : (failWaiter c why s i).slot j =
    if i = j then { (s.slot i).failed why with state := .faulted } else s.slot j := by
  rw [failWaiter, State.runFaulted, raise_slot, State.slot_setSlot]
  rfl

theorem failWaiter_claim (s : State) (i : SlotId) (d : Channel) : (failWaiter c why s i).claim d =
    if c = d then { s.claim c with waiters := (s.claim c).waiters.filter fun x => x ≠ i } else s.claim d := by
  rw [failWaiter, State.runFaulted, raise_claim, State.setSlot_claim, State.claim_setClaim]

theorem foldl_failWaiter {l : List SlotId} (hn : l.Nodup) (s : State) :
    (∀ j, (l.foldl (failWaiter c why) s).slot j =
      if j ∈ l then { (s.slot j).failed why with state := .faulted } else s.slot j) ∧
    (∀ d, (l.foldl (failWaiter c why) s).claim d =
      if c = d then { s.claim c with waiters := (s.claim c).waiters.filter fun x => x ∉ l } else s.claim d) := by
  induction l generalizing s with
  | nil => simp
  | cons i l ih =>
    obtain ⟨hi, hn⟩ := List.nodup_cons.1 hn
    obtain ⟨hslot, hclaim⟩ := ih hn (failWaiter c why s i)
    rw [List.foldl_cons]
    refine ⟨fun j => ?_, fun d => ?_⟩
    · rw [hslot, failWaiter_slot]
      by_cases hj : i = j
      · subst hj; simp [hi]
      · simp [hj, Ne.symm hj]
    · rw [hclaim, failWaiter_claim, failWaiter_claim]
      by_cases hd : c = d
      · simp [hd, List.filter_filter, Bool.and_comm]
      · simp [hd]

theorem runTasks_failWaiters {l : List SlotId} (hn : l.Nodup) (hl : ∀ i ∈ l, s.endsOn c i ∧ i ≠ h.slot)
    (hh : (s.claim c).holder = some h) : runTasks (n + 2 * l.length) (l.map (fun i => .fail i why) ++ ts) s =
      runTasks n ts (l.foldl (failWaiter c why) s) := by
  induction l generalizing s with
  | nil => rfl
  | cons i l ih =>
    obtain ⟨hi, hn⟩ := List.nodup_cons.1 hn
    obtain ⟨he, hne⟩ := hl i (by simp)
    have hlen : n + 2 * (i :: l).length = n + 2 * l.length + 2 := by rw [List.length_cons]; omega
    rw [List.map_cons, List.cons_append, hlen, runTasks_failWaiter he hh hne, List.foldl_cons]
    refine ih hn (fun j hj => ?_) ?_
    · obtain ⟨hej, hnej⟩ := hl j (by simp [hj])
      refine ⟨(State.endsOn_congr ?_).2 hej, hnej⟩
      rw [failWaiter_slot, if_neg fun (e : i = j) => hi (e ▸ hj)]
    · rw [failWaiter_claim, if_pos rfl]
      exact hh

/-! ### All steps on the outlet (R152) -/

/-- Where no program of a claimed outlet goes on, its claim is left free and every run on it ends (R152, R153). -/
theorem failStepsOn_ends (hh : (s.claim c).holder = some h) (hn : (s.claim c).waiters.Nodup) (hw : h.slot ∉ (s.claim c).waiters)
    (hends : ∀ j ∈ h.slot :: (s.claim c).waiters, s.endsOn c j) :
    (∀ j, (failStepsOn c why s).slot j =
      if j ∈ h.slot :: (s.claim c).waiters then { (s.slot j).failed why with state := .faulted } else s.slot j) ∧
    (∀ d, (failStepsOn c why s).claim d = if c = d then { holder := none, waiters := [] } else s.claim d) ∧
    (failStepsOn c why s).isPending .program = true := by
  have hrev := List.nodup_reverse.2 hn
  have hlen : (s.claim c).waiters.reverse.length ≤ 4 := hrev.length_le_card
  have hbound : taskBound s = (taskBound s - 3 - 2 * (s.claim c).waiters.reverse.length) + 3 +
      2 * (s.claim c).waiters.reverse.length := by
    unfold taskBound
    omega
  have hsteps : (stepsOn c s).map (fun i => DutyTask.fail i why) =
      (s.claim c).waiters.reverse.map (fun i => .fail i why) ++ [.fail h.slot why] := by
    simp [stepsOn, hh]
  obtain ⟨hslot, hclaim⟩ := foldl_failWaiter (c := c) (why := why) hrev s
  have hholder : ((s.claim c).waiters.reverse.foldl (failWaiter c why) s).endsOn c h.slot := by
    refine (State.endsOn_congr ?_).2 (hends h.slot (by simp))
    rw [hslot, if_neg (by simpa using hw)]
  have hrun : failStepsOn c why s = ((((s.claim c).waiters.reverse.foldl (failWaiter c why) s).setClaim c
      { holder := none, waiters := [] }).runFaulted h.slot why) := by
    rw [failStepsOn, runDuty, hsteps, hbound, runTasks_failWaiters hrev (fun i hi => ?_) hh,
      runTasks_failHolder hholder (by rw [hclaim, if_pos rfl]; simp [hh])]
    · cases taskBound s - 3 - 2 * (s.claim c).waiters.reverse.length <;> rfl
    · have hi := List.mem_reverse.1 hi
      exact ⟨hends i (List.mem_cons_of_mem _ hi), fun e => hw (e ▸ hi)⟩
  rw [hrun]
  refine ⟨fun j => ?_, fun d => ?_, ?_⟩
  · rw [State.runFaulted, raise_slot, State.slot_setSlot, State.setClaim_slot, State.setClaim_slot, hslot, hslot]
    by_cases hj : h.slot = j
    · subst hj; simp [hw]
    · simp [hj, Ne.symm hj]
  · rw [State.runFaulted, raise_claim, State.setSlot_claim, State.claim_setClaim, hclaim]
    split <;> simp_all
  · rw [State.runFaulted, raise_isPending]
    simp

end Sys2Proof.Machine
end

section
/-! A bank taken into hand-off: the order of its channels, and the steps on its claimed outlet (R129 to R131, R152). -/

namespace Sys2Proof.Machine

variable {s : State} {b : BankId} {c : Channel} {o : Outlet}

/-! ### The order of a bank's channels -/

theorem bankChannels_ascending (b : BankId) : (bankChannels b).Pairwise fun x y => x < y := by
  unfold bankChannels
  rw [indices_eq_finRange]
  exact (List.pairwise_lt_finRange 48).filter _

/-- A bank's channels in ascending order are one list. -/
theorem eq_bankChannels {bank : List Channel} (hsorted : bank.Pairwise fun x y => x < y)
    (hmem : ∀ c : Channel, c ∈ bank ↔ bankOf c = b) : bank = bankChannels b :=
  hsorted.eq_of_mem_iff (bankChannels_ascending b) fun c => (hmem c).trans mem_bankChannels.symm

/-! ### The stops, where they let the arbiter grant nothing (R130) -/

/-- A stop of any of these channels releases no slot, or nobody waits for one. -/
def State.stopsQuietly (s : State) (cs : List Channel) : Prop :=
  (∀ d ∈ cs, (s.position d).move = none) ∨ s.drive.closing = [] ∧ s.drive.opening = []

theorem stopChannel_quiet (h : s.stopsQuietly [c]) : stopChannel c s = removeEntry c (s.modifyPosition c fun p =>
    { estimateLeg p with move := none, pause := none, homeReq := false, target := none }) := by
  unfold stopChannel
  simp only
  rcases h with h | ⟨hc, ho⟩
  · simp [h c (by simp)]
  · split
    · exact runArbiter_empty (by simp [removeEntry, State.modifyPosition, State.setPosition, hc])
        (by simp [removeEntry, State.modifyPosition, State.setPosition, ho])
    · rfl

theorem releaseDrive_quiet {cs : List Channel} (h : s.stopsQuietly (c :: cs)) :
    (releaseDrive s c).duty = s.duty ∧ (releaseDrive s c).stopsQuietly cs := by
  have hc : s.stopsQuietly [c] := h.imp_left fun h d hd => h d (by simp_all)
  rw [releaseDrive, stopChannel_quiet hc]
  refine ⟨rfl, h.imp (fun h d hd => ?_) fun ⟨hcl, hop⟩ => ?_⟩
  · rw [State.position_modifyPosition, removeEntry_position, State.position_modifyPosition, removeEntry_position,
      State.position_modifyPosition, if_pos rfl]
    split
    · rfl
    · exact h d (by simp [hd])
  · exact ⟨by simp [removeEntry, State.modifyPosition, State.setPosition, hcl],
      by simp [removeEntry, State.modifyPosition, State.setPosition, hop]⟩

theorem foldl_releaseDrive_duty {cs : List Channel} (h : s.stopsQuietly cs) : (cs.foldl releaseDrive s).duty = s.duty := by
  induction cs generalizing s with
  | nil => rfl
  | cons c cs ih =>
    obtain ⟨hduty, hrest⟩ := releaseDrive_quiet h
    exact (ih hrest).trans hduty

/-! ### The holds (R131, R152) -/

theorem holdOutlet_free (h : s.claim c = { holder := none, waiters := [] }) :
    (holdOutlet s c).duty = s.duty ∧ (holdOutlet s c).link = s.link := by
  cases ho : s.outlet c with
  | none => rw [holdOutlet_absent ho]; exact ⟨rfl, rfl⟩
  | some o =>
    by_cases hs : o.state = .held ∨ o.state = .faulted
    · rw [holdOutlet_silent ho hs]; exact ⟨rfl, rfl⟩
    · rw [holdOutlet_holds ho hs, failStepsOn_free (s := s.setOutlet c _) h]
      exact ⟨rfl, rfl⟩

theorem foldl_holdOutlet_free {cs : List Channel} (h : ∀ d ∈ cs, s.claim d = { holder := none, waiters := [] }) :
    (cs.foldl holdOutlet s).duty = s.duty ∧ (cs.foldl holdOutlet s).link = s.link := by
  induction cs generalizing s with
  | nil => exact ⟨rfl, rfl⟩
  | cons c cs ih =>
    obtain ⟨hduty, hlink⟩ := holdOutlet_free (h c (by simp))
    obtain ⟨ihduty, ihlink⟩ := ih (s := holdOutlet s c) fun d hd =>
      (congrArg (fun x : Duty => x.claims.get d) hduty).trans (h d (by simp [hd]))
    exact ⟨ihduty.trans hduty, ihlink.trans hlink⟩

/-- One claimed outlet of the bank, on which no program goes on (R152, R153). -/
theorem bankHeld_ends {h : Holder} (hb : s.handoff.bho.get b = true) (hc : bankOf c = b) (ho : s.outlet c = some o)
    (hs : ¬(o.state = .held ∨ o.state = .faulted)) (hquiet : s.stopsQuietly (bankChannels b))
    (hfree : ∀ d : Channel, bankOf d = b → d ≠ c → s.claim d = { holder := none, waiters := [] })
    (hh : (s.claim c).holder = some h) (hn : (s.claim c).waiters.Nodup) (hw : h.slot ∉ (s.claim c).waiters)
    (hends : ∀ j ∈ h.slot :: (s.claim c).waiters, s.endsOn c j) :
    (∀ j, (bankHeld b s).slot j =
      if j ∈ h.slot :: (s.claim c).waiters then { (s.slot j).failed .handoff with state := .faulted } else s.slot j) ∧
    (∀ d, (bankHeld b s).claim d = if c = d then { holder := none, waiters := [] } else s.claim d) ∧
    (bankHeld b s).isPending .program = true := by
  obtain ⟨front, behind, hbank⟩ := List.append_of_mem (mem_bankChannels.2 hc)
  have hnodup := hbank ▸ bankChannels_nodup b
  have hmem {d : Channel} (hd : d ∈ front ++ c :: behind) : bankOf d = b := mem_bankChannels.1 (hbank ▸ hd)
  obtain ⟨hnfront, hnbehind, hdisjoint⟩ := List.nodup_append.1 hnodup
  have hcfront : c ∉ front := fun hf => hdisjoint c hf c (by simp) rfl
  have hcbehind : c ∉ behind := (List.nodup_cons.1 hnbehind).1
  have hstopped := foldl_releaseDrive_duty hquiet
  have hfront : ((front.foldl holdOutlet ((bankChannels b).foldl releaseDrive s)).duty) = s.duty := by
    refine (foldl_holdOutlet_free fun d hd => ?_).1.trans hstopped
    exact (congrArg (fun x : Duty => x.claims.get d) hstopped).trans
      (hfree d (hmem (by simp [hd])) fun e => hcfront (e ▸ hd))
  have hout : (front.foldl holdOutlet ((bankChannels b).foldl releaseDrive s)).outlet c = some o := by
    rw [(foldl_holdOutlet hnfront _).2.2, if_neg hcfront,
      ((foldl_releaseDrive (bankChannels_nodup b) (fun _ => mem_bankChannels.1) hb).2.2 c hc).1, ho]
  have hheld : bankHeld b s = behind.foldl holdOutlet (failStepsOn c .handoff
      ((front.foldl holdOutlet ((bankChannels b).foldl releaseDrive s)).setOutlet c (some (heldRecord o)))) := by
    rw [bankHeld]
    conv_lhs => rw [hbank, List.foldl_append, List.foldl_cons, ← hbank]
    rw [holdOutlet_holds hout hs]
  generalize front.foldl holdOutlet ((bankChannels b).foldl releaseDrive s) = x at hfront hheld
  have hclaims (d : Channel) : (x.setOutlet c (some (heldRecord o))).claim d = s.claim d :=
    congrArg (fun y : Duty => y.claims.get d) hfront
  have hslots (j : SlotId) : (x.setOutlet c (some (heldRecord o))).slot j = s.slot j :=
    congrArg (fun y : Duty => y.slots.get j) hfront
  obtain ⟨hslot, hclaim, hpending⟩ := failStepsOn_ends (why := .handoff) ((congrArg Claim.holder (hclaims c)).trans hh)
    ((hclaims c).symm ▸ hn) ((hclaims c).symm ▸ hw) fun j hj => (State.endsOn_congr (hslots j)).2 (hends j (hclaims c ▸ hj))
  obtain ⟨hduty, hlink⟩ := foldl_holdOutlet_free (cs := behind)
    (s := failStepsOn c .handoff (x.setOutlet c (some (heldRecord o)))) fun d hd => by
      have hne : c ≠ d := fun e => hcbehind (e ▸ hd)
      rw [hclaim, if_neg hne, hclaims]
      exact hfree d (hmem (by simp [hd])) hne.symm
  rw [hheld]
  refine ⟨fun j => ?_, fun d => ?_, (State.isPending_congr hlink _).trans hpending⟩
  · refine (congrArg (fun y : Duty => y.slots.get j) hduty).trans ((hslot j).trans ?_)
    rw [hclaims, hslots]
  · refine (congrArg (fun y : Duty => y.claims.get d) hduty).trans ((hclaim d).trans ?_)
    rw [hclaims]

/-! ### The edges of the input (R129) -/

theorem bhoAssertion_asserted (h : s.handoff.bho.get b = true) : bhoAssertion b s = s :=
  if_pos h

theorem bhoAssertion_handedOff (h : s.handoff.bho.get b = false) (hh : s.handoff.handedOff.get b = true) :
    bhoAssertion b s = setBho b true s := by
  simp [bhoAssertion, h, hh]

theorem bhoAssertion_takes (hr : s.rstLow = false) (h : s.handoff.bho.get b = false)
    (hh : s.handoff.handedOff.get b = false) : bhoAssertion b s = takeBank b (setBho b true s) := by
  simp [bhoAssertion, h, hh, hr]

theorem bhoRelease_negated (h : s.handoff.bho.get b = false) : bhoRelease b s = s := by
  simp [bhoRelease, h]

theorem bhoRelease_kept (h : s.handoff.bho.get b = true) (hh : s.handoff.handedOff.get b = false) :
    bhoRelease b s = setBho b false s := by
  simp [bhoRelease, h, hh]

theorem bhoRelease_returns (hr : s.rstLow = false) (h : s.handoff.bho.get b = true)
    (hh : s.handoff.handedOff.get b = true) : bhoRelease b s = returnBank b (setBho b false s) := by
  simp [bhoRelease, h, hh, hr]

end Sys2Proof.Machine
end

section
/-! A bank returned to the part (R133): what the homing requests of one event make of an outlet record, and of HOME_REQ. -/

namespace Sys2Proof.Machine

/-! ### The outlet record within the event -/

/-- A homing request sets off grants alone, where no target is to be kept. -/
theorem State.grantsFrom.requestHoming {b s : State} {A : Set Channel} {x : Channel → Nat} {c : Channel}
    (h : State.grantsFrom b A ∅ x s) (hc : c ∈ A) : State.grantsFrom b A ∅ x (Machine.requestHoming c s) := by
  have position {t : State} (ht : State.grantsFrom b A ∅ x t) (f : Position → Position) :
      State.grantsFrom b A ∅ x (t.modifyPosition c f) :=
    Set.empty_sdiff {c} ▸ ht.setPosition c _
  have h₁ := position h fun p => { p with homeReq := true }
  unfold Machine.requestHoming homingRequest
  simp only
  split
  · split
    · exact joinQueue runArbiter h₁ _ hc
    · exact h₁
    · exact joinQueue runArbiter (h₁.removeEntry c) _ hc
  · split
    · exact h₁
    · split
      · exact (position h₁ _).renewMove c
      · exact reverseMove runArbiter (position h₁ _) _ hc

/-- Between `b` and `s` nothing has come to the outlet record of channel `c` but the effect of a slot grant that CLIM ends. -/
structure State.effectAt (b : State) (c : Channel) (s : State) : Prop where
  olim : s.olimActive c = b.olimActive c
  clim : s.climActive c = b.climActive c
  outlet : s.outlet c = b.outlet c ∨
    b.climActive c = true ∧ s.outlet c = (b.outlet c).map (grantEffect (b.olimActive c))

namespace State.effectAt

variable {b s t : State} {c d : Channel} {o : Outlet}

theorem refl (b : State) (c : Channel) : State.effectAt b c b :=
  ⟨rfl, rfl, .inl rfl⟩

theorem trans (h : State.effectAt b c s) (h' : State.effectAt s c t) : State.effectAt b c t where
  olim := h'.olim.trans h.olim
  clim := h'.clim.trans h.clim
  outlet := by
    have hidem : grantEffect (b.olimActive c) ∘ grantEffect (b.olimActive c) = grantEffect (b.olimActive c) :=
      funext fun o => grantEffect_idem _ o
    have h'' := h'.outlet
    rw [h.olim, h.clim] at h''
    rcases h'' with e' | ⟨hc, e'⟩
    · rw [e']
      exact h.outlet
    · rcases h.outlet with e | ⟨-, e⟩
      · exact .inr ⟨hc, by rw [e', e]⟩
      · exact .inr ⟨hc, by rw [e', e, Option.map_map, hidem]⟩

theorem requestHoming (d : Channel) (s : State) : State.effectAt s c (Machine.requestHoming d s) := by
  have h := (State.grantsFrom.refl s (A := Set.univ) (fun _ => 0) fun _ _ => trivial).requestHoming (c := d) trivial
  exact ⟨h.olim c, h.clim c, (h.outlet c).imp_right And.right⟩

/-- The return of another outlet. -/
theorem rehomeHeld (hd : d ≠ c) (s : State) : State.effectAt s c (Machine.rehomeHeld s d) := by
  unfold Machine.rehomeHeld
  split
  · exact refl s c
  · next o _ =>
    split
    · have hsame : State.effectAt s c (s.setOutlet d (some { o with state := .homing })) :=
        ⟨rfl, rfl, .inl ((State.outlet_setOutlet ..).trans (if_neg hd))⟩
      exact hsame.trans (requestHoming d _)
    · exact refl s c

theorem foldl_rehomeHeld {cs : List Channel} (hc : c ∉ cs) (s : State) :
    State.effectAt s c (cs.foldl Machine.rehomeHeld s) := by
  induction cs generalizing s with
  | nil => exact refl s c
  | cons d cs ih =>
    obtain ⟨hd, hcs⟩ := not_or.1 (List.mem_cons.not.1 hc)
    exact (rehomeHeld (Ne.symm hd) s).trans (ih hcs _)

theorem outlet_some (h : State.effectAt b c s) (ho : b.outlet c = some o) :
    s.outlet c = some o ∨ b.climActive c = true ∧ s.outlet c = some (grantEffect (b.olimActive c) o) := by
  simpa [ho] using h.outlet

end State.effectAt

theorem rehomeHeld_held {s : State} {c : Channel} {o : Outlet} (ho : s.outlet c = some o) (hs : o.state = .held) :
    rehomeHeld s c = requestHoming c (s.setOutlet c (some { o with state := .homing })) := by
  simp [rehomeHeld, ho, hs]

theorem rehomeHeld_other {s : State} {c : Channel} {o : Outlet} (ho : s.outlet c = some o) (hs : o.state ≠ .held) :
    rehomeHeld s c = s := by
  simp [rehomeHeld, ho, hs]

theorem rehomeHeld_absent {s : State} {c : Channel} (ho : s.outlet c = none) : rehomeHeld s c = s := by
  simp [rehomeHeld, ho]

theorem rehomeHeld_handoff (s : State) (c : Channel) : (rehomeHeld s c).handoff = s.handoff := by
  unfold rehomeHeld
  split
  · rfl
  · split
    · exact (requestHoming_handoff ..).trans rfl
    · rfl

theorem foldl_rehomeHeld_handoff (cs : List Channel) (s : State) : (cs.foldl rehomeHeld s).handoff = s.handoff := by
  induction cs generalizing s with
  | nil => rfl
  | cons c cs ih => exact (ih _).trans (rehomeHeld_handoff s c)

/-! ### What the effect of a grant keeps of an outlet record -/

theorem grantEffect_frame (olim : Bool) (o : Outlet) :
    (grantEffect olim o).fixed = o.fixed ∧ (grantEffect olim o).bars = o.bars ∧
    ((grantEffect olim o).state = .held ↔ o.state = .held) ∧
    (o.state = .faulted → (grantEffect olim o).state = .faulted) := by
  cases olim with
  | true =>
    simp only [grantEffect, if_true]
    cases hs : o.state <;> simp [bothLimitsFault, hs, leaveEligible]
  | false =>
    simp only [grantEffect, Bool.false_eq_true, if_false, homedOutlet]
    cases hs : o.state with
    | homing => cases o.bars.all <;> simp
    | _ => simp

/-- A homing outlet that a grant reaches with CLIM active is homed or FAULTED at once (R120, R121). -/
theorem grantEffect_homing {s : State} {c : Channel} {o : Outlet} (h : o.state = .homing) (hc : s.climActive c = true) :
    (grantEffect (s.olimActive c) o).state ≠ .homing ∧
    (s.homesAtOnce c (grantEffect (s.olimActive c) o) ∨ s.failsAtOnce c (grantEffect (s.olimActive c) o)) := by
  cases holim : s.olimActive c with
  | true =>
    have hfault : grantEffect true o = { o with state := .faulted, recovery := false, lastFault := some .bothLimits } := by
      simp [grantEffect, bothLimitsFault, h]
    rw [hfault]
    exact ⟨by simp, .inr ⟨hc, holim, rfl, rfl⟩⟩
  | false =>
    have hstate : (grantEffect false o).state = if o.bars.all = true then .locked else .idle := by
      simp [grantEffect, homedOutlet, h]
    exact ⟨by rw [hstate]; split <;> simp, .inl ⟨hc, holim, hstate⟩⟩

end Sys2Proof.Machine
end

section
/-! A homing outlet keeps its homing request through the grants of one event: a grant clears it only where it also takes the outlet
out of HOMING, by a completion (R114, R120) or a fault (R116, R121). -/

namespace Sys2Proof.Machine

/-- Each homing outlet of these channels has its homing request standing. -/
def State.homesRequested (s : State) (T : Set Channel) : Prop :=
  ∀ c ∈ T, ∀ o : Outlet, s.outlet c = some o → o.state = .homing → (s.position c).homeReq = true

namespace State.homesRequested

variable {s t : State} {T : Set Channel} {c : Channel}

/-! ### The updates that keep it -/

theorem congr (h : s.homesRequested T) (ho : ∀ d, t.outlet d = s.outlet d) (hp : ∀ d, t.position d = s.position d) :
    t.homesRequested T := fun d hd o hdo hs => by
  rw [hp]
  exact h d hd o (ho d ▸ hdo) hs

/-- Any position record, at the price of its channel. -/
theorem setPosition (h : s.homesRequested T) (c : Channel) (p : Position) : (s.setPosition c p).homesRequested (T \ {c}) := by
  intro d hd o ho hs
  rw [State.position_setPosition, if_neg fun e => hd.2 e.symm]
  exact h d hd.1 o ho hs

theorem modifyPosition (h : s.homesRequested T) (c : Channel) {f : Position → Position}
    (hf : (s.position c).homeReq = true → (f (s.position c)).homeReq = true) :
    (s.modifyPosition c f).homesRequested T := by
  intro d hd o ho hs
  rw [State.position_modifyPosition]
  split
  · next e =>
    subst e
    exact hf (h c hd o ho hs)
  · exact h d hd o ho hs

/-- Setting the request. -/
theorem request (h : s.homesRequested (T \ {c})) :
    (s.modifyPosition c fun p => { p with homeReq := true }).homesRequested T := by
  intro d hd o ho hs
  rw [State.position_modifyPosition]
  split
  · rfl
  · next e => exact h d ⟨hd, fun e' => e (Eq.symm e')⟩ o ho hs

/-- A channel whose outlet does not home needs no request. -/
theorem of_notHoming (h : s.homesRequested (T \ {c})) (hc : ∀ o : Outlet, s.outlet c = some o → o.state ≠ .homing) :
    s.homesRequested T := by
  intro d hd o ho hs
  by_cases e : d = c
  · subst e
    exact absurd hs (hc o ho)
  · exact h d ⟨hd, e⟩ o ho hs

theorem setOutlet (h : s.homesRequested T) (hc : c ∉ T) (x : Option Outlet) : (s.setOutlet c x).homesRequested T := by
  intro d hd o ho hs
  rw [State.outlet_setOutlet, if_neg fun (e : c = d) => hc (e ▸ hd)] at ho
  exact h d hd o ho hs

/-- The outlet taken out of HOMING, at whatever record the channel has. -/
theorem modifyOutlet (h : s.homesRequested (T \ {c})) {f : Outlet → Outlet} (hf : ∀ o : Outlet, (f o).state ≠ .homing) :
    (s.modifyOutlet c f).homesRequested T := by
  refine of_notHoming (c := c) (fun d hd o ho hs => ?_) fun o ho => ?_
  · rw [State.outlet_modifyOutlet, if_neg fun e => hd.2 e.symm] at ho
    exact h d hd o ho hs
  · rw [State.outlet_modifyOutlet, if_pos rfl] at ho
    obtain ⟨o', -, rfl⟩ := Option.map_eq_some_iff.1 ho
    exact hf o'

theorem addEntry (h : s.homesRequested T) (d : MoveDir) (c : Channel) : (Machine.addEntry d c s).homesRequested T :=
  h.congr (by simp) (by simp)

theorem removeEntry (h : s.homesRequested T) (c : Channel) : (Machine.removeEntry c s).homesRequested T :=
  h.congr (fun _ => rfl) fun _ => rfl

theorem homingDone (h : s.homesRequested (T \ {c})) : (Machine.homingDone c s).homesRequested T := by
  rw [homingDone_eq]
  refine h.modifyOutlet fun o => ?_
  unfold homedOutlet
  simp only
  split
  · split <;> simp
  · assumption

theorem faultReport (h : s.homesRequested (T \ {c})) (arb : State → State) :
    (Machine.faultReport arb c .bothLimits s).homesRequested T := by
  obtain ⟨houtlet, hdrive⟩ := faultReport_bothLimits arb c s
  have hfault (o : Outlet) : (bothLimitsFault o).state ≠ .homing := by
    rcases bothLimitsFault_state o with ⟨hs, e⟩ | e
    · rw [e, hs]; simp
    · rw [e]; simp
  have hdone := h.modifyOutlet hfault
  rcases hdrive with e | e
  · exact hdone.congr houtlet fun d => by simp only [State.position, e]; rfl
  · have hknown : ((s.modifyOutlet c bothLimitsFault).modifyPosition c fun p => { p with known := false }).homesRequested T :=
      hdone.modifyPosition c id
    exact hknown.congr houtlet fun d => by simp only [State.position, e]; rfl

/-! ### The operations of the Drive Unit -/

variable {arb : State → State} (ha : ∀ T s, State.homesRequested s T → (arb s).homesRequested T)
include ha

theorem faultStop (h : s.homesRequested T) (c : Channel) :
    (Machine.faultStop arb true c .bothLimits s).homesRequested T :=
  faultReport (ha _ _ ((h.setPosition c (faultPosition (s.olimActive c) (s.climActive c) (s.position c))).removeEntry c)) arb

theorem joinQueue (h : s.homesRequested T) (d : MoveDir) (c : Channel) : (Machine.joinQueue arb d c s).homesRequested T := by
  unfold Machine.joinQueue
  split
  · exact h
  · exact ha _ _ (h.addEntry d c)

theorem reverseMove (h : s.homesRequested T) (d : MoveDir) (c : Channel) : (Machine.reverseMove arb d c s).homesRequested T :=
  joinQueue ha ((ha _ _ (h.modifyPosition c id)).modifyPosition c id) d c

omit ha in
theorem renewMove (h : s.homesRequested T) (c : Channel) : (Machine.renewMove c s).homesRequested T := by
  refine h.modifyPosition c fun hr => ?_
  split
  · exact hr
  · exact hr

omit ha in
theorem homeReq_completedPosition {m : Move} (hm : m.kind ≠ .homing) (est : Nat) (known : Bool) (p : Position) :
    (completedPosition m est known p).homeReq = p.homeReq := by
  rw [completedPosition_other est known p hm]

theorem completeMove (h : s.homesRequested T) (m : Move) (est : Nat) (known : Bool) (c : Channel) :
    (Machine.completeMove arb m est known c s).homesRequested T := by
  have hstate : (completed arb m est known c s).homesRequested T := by
    unfold completed
    split
    · exact homingDone (ha _ _ (h.setPosition c _))
    · next hm => exact ha _ _ (h.modifyPosition c fun hr => (homeReq_completedPosition hm est known _).trans hr)
  cases hn : moveNeed c (completed arb m est known c s) with
  | none => rwa [completeMove_rests hn]
  | some d =>
    by_cases hd : d = m.dir
    · subst hd
      rw [completeMove_goesOn hn]
      exact joinQueue ha hstate _ c
    · rw [completeMove_reverses hn hd]
      exact joinQueue ha (hstate.modifyPosition c id) _ c

theorem startMove (h : s.homesRequested T) (d : MoveDir) (c : Channel) : (Machine.startMove arb d c s).homesRequested T := by
  unfold Machine.startMove
  simp only
  split
  · exact faultStop ha h c
  · split
    · exact completeMove ha h _ _ _ c
    · exact h.modifyPosition c id

omit ha in
theorem arbiter (n : Nat) (T : Set Channel) (s : State) (h : s.homesRequested T) :
    (Machine.arbiter n s).homesRequested T := by
  induction n generalizing T s with
  | zero => exact h
  | succ n ih =>
    unfold Machine.arbiter
    split
    · split
      · exact h
      · exact ih _ _ (startMove ih (h.removeEntry _) _ _)
    · exact h

omit ha in
theorem runArbiter (T : Set Channel) (s : State) (h : s.homesRequested T) : (Machine.runArbiter s).homesRequested T :=
  arbiter _ T s h

omit ha in
theorem homeReq_estimateLeg (p : Position) : (estimateLeg p).homeReq = p.homeReq := by
  unfold estimateLeg
  split <;> rfl

omit ha in
theorem requestHoming (h : s.homesRequested (T \ {c})) : (Machine.requestHoming c s).homesRequested T := by
  have h₁ := h.request
  have h₂ : ((s.modifyPosition c fun p => { p with homeReq := true }).modifyPosition c estimateLeg).homesRequested T :=
    h₁.modifyPosition c (homeReq_estimateLeg _).trans
  unfold Machine.requestHoming homingRequest
  simp only
  split
  · split
    · exact joinQueue runArbiter h₁ _ c
    · exact h₁
    · exact joinQueue runArbiter (h₁.removeEntry c) _ c
  · split
    · exact h₁
    · split
      · exact h₂.renewMove c
      · exact reverseMove runArbiter h₂ _ c

/-! ### The return of a bank (R133) -/

omit ha in
/-- The return of a HELD outlet requests its homing, and that of any other outlet leaves the requests. -/
theorem rehomeHeld (h : s.homesRequested T) (hc : c ∉ T) : (Machine.rehomeHeld s c).homesRequested T := by
  unfold Machine.rehomeHeld
  split
  · exact h
  · split
    · refine requestHoming ?_
      rw [Set.sdiff_singleton_eq_self hc]
      exact h.setOutlet hc _
    · exact h

omit ha in
theorem foldl_rehomeHeld {cs : List Channel} (h : s.homesRequested T) (hcs : ∀ c ∈ cs, c ∉ T) :
    (cs.foldl Machine.rehomeHeld s).homesRequested T := by
  induction cs generalizing s with
  | nil => exact h
  | cons c cs ih => exact ih (h.rehomeHeld (hcs c (by simp))) fun d hd => hcs d (by simp [hd])

end State.homesRequested

end Sys2Proof.Machine
end

section
/-! The hand-off of a bank and its return (R129 to R133). -/

namespace Sys2Proof.Machine

variable {s : State} {b : BankId} {c : Channel} {o : Outlet} {cs : List Channel}

/-! ### One channel of a bank that returns (R133) -/

/-- What returns does not touch an outlet that is not HELD, but for the grants it sets off. -/
theorem foldl_rehomeHeld_kept (hn : cs.Nodup) (h : ∀ o : Outlet, s.outlet c = some o → o.state ≠ .held) :
    State.effectAt s c (cs.foldl rehomeHeld s) := by
  by_cases hc : c ∈ cs
  · obtain ⟨front, behind, rfl⟩ := List.append_of_mem hc
    obtain ⟨-, hnbehind, hdisjoint⟩ := List.nodup_append.1 hn
    have hfront : c ∉ front := fun hf => hdisjoint c hf c (by simp) rfl
    have hbefore := State.effectAt.foldl_rehomeHeld hfront s
    have hown : rehomeHeld (front.foldl rehomeHeld s) c = front.foldl rehomeHeld s := by
      cases ho : s.outlet c with
      | none =>
        have hnone : (front.foldl rehomeHeld s).outlet c = none := by
          rcases hbefore.outlet with e | ⟨-, e⟩
          · rw [e, ho]
          · rw [e, ho]; rfl
        exact rehomeHeld_absent hnone
      | some o =>
        have hs := h o ho
        rcases hbefore.outlet_some ho with ho' | ⟨-, ho'⟩
        · exact rehomeHeld_other ho' hs
        · exact rehomeHeld_other ho' ((grantEffect_frame ..).2.2.1.not.2 hs)
    rw [List.foldl_append, List.foldl_cons, hown]
    exact hbefore.trans (State.effectAt.foldl_rehomeHeld (List.nodup_cons.1 hnbehind).1 _)
  · exact State.effectAt.foldl_rehomeHeld hc s

/-- The returns of other outlets leave a channel that has no entry alone. -/
theorem foldl_rehomeHeld_apart (hc : c ∉ cs) (hq : c ∉ s.drive.closing ++ s.drive.opening) :
    State.motionFrom s { x | x ≠ c } (cs.foldl rehomeHeld s) := by
  have hA : s.holdsGrantees { x | x ≠ c } := fun x hx _ (e : x = c) => hq (e ▸ hx)
  have step {t : State} (ht : State.motionFrom s { x | x ≠ c } t) {d : Channel} (hd : d ≠ c) :
      State.motionFrom s { x | x ≠ c } (rehomeHeld t d) := by
    unfold rehomeHeld
    split
    · exact ht
    · split
      · exact State.motionFrom.requestHoming hA (ht.setOutlet hd _) hd
      · exact ht
  suffices ∀ t, State.motionFrom s { x | x ≠ c } t → State.motionFrom s { x | x ≠ c } (cs.foldl rehomeHeld t) from
    this s (State.motionFrom.refl ..)
  intro t ht
  induction cs generalizing t with
  | nil => exact ht
  | cons d cs ih =>
    obtain ⟨hd, hcs⟩ := not_or.1 (List.mem_cons.not.1 hc)
    exact ih hcs _ (step ht (Ne.symm hd))

/-- A HELD outlet is taken into HOMING with a request, on which a grant may then have its effect. -/
theorem foldl_rehomeHeld_held (hn : cs.Nodup) (hc : c ∈ cs) (ho : s.outlet c = some o) (hs : o.state = .held) :
    ∃ (x : State) (w : Outlet), State.effectAt s c x ∧ x.outlet c = some w ∧ w.state = .held ∧
      (c ∉ s.drive.closing ++ s.drive.opening → w = o) ∧
      State.effectAt (x.setOutlet c (some { w with state := .homing })) c (cs.foldl rehomeHeld s) ∧
      (cs.foldl rehomeHeld s).homesRequested {c} := by
  obtain ⟨front, behind, rfl⟩ := List.append_of_mem hc
  obtain ⟨-, hnbehind, hdisjoint⟩ := List.nodup_append.1 hn
  have hfront : c ∉ front := fun hf => hdisjoint c hf c (by simp) rfl
  have hbehind : c ∉ behind := (List.nodup_cons.1 hnbehind).1
  have hbefore := State.effectAt.foldl_rehomeHeld hfront s
  have hheld : ∃ w : Outlet, (front.foldl rehomeHeld s).outlet c = some w ∧ w.state = .held := by
    rcases hbefore.outlet_some ho with ho' | ⟨-, ho'⟩
    · exact ⟨o, ho', hs⟩
    · exact ⟨_, ho', (grantEffect_frame ..).2.2.1.2 hs⟩
  obtain ⟨w, how, hsw⟩ := hheld
  rw [List.foldl_append, List.foldl_cons, rehomeHeld_held how hsw]
  refine ⟨_, w, hbefore, how, hsw, fun hq => ?_, ?_, ?_⟩
  · have hsame := (foldl_rehomeHeld_apart hfront hq).outlet c (by simp)
    rw [how, ho] at hsame
    exact Option.some.inj hsame
  · exact (State.effectAt.requestHoming c _).trans (State.effectAt.foldl_rehomeHeld hbehind _)
  · refine State.homesRequested.foldl_rehomeHeld ?_ fun d hd (e : d = c) => hbehind (e ▸ hd)
    exact State.homesRequested.requestHoming fun d hd => absurd hd.1 hd.2

/-! ### A return with no slot free (R133) -/

theorem slotsHeld_setPosition {q : Position} (h : q.move.isSome = (s.position c).move.isSome) :
    (s.setPosition c q).slotsHeld = s.slotsHeld := by
  have hdriving : (s.setPosition c q).isDriving = s.isDriving := by
    funext d
    simp only [State.isDriving, State.position_setPosition]
    split
    · next e => rw [h, e]
    · rfl
  rw [State.slotsHeld, State.slotsHeld, hdriving]

/-- A HELD outlet homes, and its channel waits at the tail of the closing tier. -/
def homingQueued (c : Channel) (o : Outlet) (s : State) : State :=
  addEntry .closing c ((s.setOutlet c (some { o with state := .homing })).setPosition c { s.position c with homeReq := true })

theorem homingQueued_slotFree (s : State) (c : Channel) (o : Outlet) : (homingQueued c o s).slotFree = s.slotFree := by
  have hheld : ((s.setOutlet c (some { o with state := .homing })).setPosition c
      { s.position c with homeReq := true }).slotsHeld = s.slotsHeld := slotsHeld_setPosition rfl
  rw [State.slotFree, homingQueued, addEntry_slotsHeld, hheld]
  rfl

theorem homingQueued_apart {d : Channel} (hd : c ≠ d) (s : State) (o : Outlet) :
    (homingQueued c o s).outlet d = s.outlet d ∧ (homingQueued c o s).position d = s.position d := by
  rw [homingQueued, addEntry_outlet, addEntry_position]
  exact ⟨(State.outlet_setOutlet ..).trans (if_neg hd), (State.position_setPosition ..).trans (if_neg hd)⟩

/-- With no slot free, the homing request of a still channel joins the tail of the closing tier. -/
theorem rehomeHeld_queues (hf : s.slotFree = false) (hh : s.handedOff c = false) (hm : (s.position c).move = none)
    (hc : c ∉ s.drive.closing) (hop : c ∉ s.drive.opening) (ho : s.outlet c = some o) (hs : o.state = .held) :
    rehomeHeld s c = homingQueued c o s := by
  have hset : (s.setOutlet c (some { o with state := .homing })).outlet c = some { o with state := .homing } :=
    (State.outlet_setOutlet ..).trans (if_pos rfl)
  have hneed : moveNeed c ((s.setOutlet c (some { o with state := .homing })).setPosition c
      { s.position c with homeReq := true }) = some .closing :=
    moveNeed_homing hset (by rw [State.position_setPosition_self])
  have hqueued : ((s.setOutlet c (some { o with state := .homing })).setPosition c
      { s.position c with homeReq := true }).queuedTier c = none := by
    rw [queuedTier_eq_none, List.mem_append]
    exact not_or.2 ⟨hc, hop⟩
  rw [rehomeHeld_held ho hs, requestHoming_still (s := s.setOutlet c _) hset hm rfl]
  refine (applyNeed_joins hqueued hneed).trans ((joinQueue_joins ?_).trans ?_)
  · exact hh
  · exact runArbiter_noSlot ((homingQueued_slotFree s c o).trans hf)

theorem foldl_rehomeHeld_queues (hn : cs.Nodup) (hf : s.slotFree = false)
    (hcs : ∀ c ∈ cs, s.handedOff c = false ∧ (s.position c).move = none ∧ c ∉ s.drive.closing ∧ c ∉ s.drive.opening) :
    (cs.foldl rehomeHeld s).drive.closing =
      s.drive.closing ++ cs.filter (fun c => decide ((s.outlet c).map (fun o => o.state) = some .held)) ∧
    (cs.foldl rehomeHeld s).drive.opening = s.drive.opening := by
  induction cs generalizing s with
  | nil => simp
  | cons c cs ih =>
    obtain ⟨hc, hn⟩ := List.nodup_cons.1 hn
    obtain ⟨hh, hm, hcl, hop⟩ := hcs c (by simp)
    rw [List.foldl_cons]
    by_cases hheld : (s.outlet c).map (fun o => o.state) = some .held
    · obtain ⟨o, ho, hs⟩ := Option.map_eq_some_iff.1 hheld
      have hne {d : Channel} (hd : d ∈ cs) : c ≠ d := fun e => hc (e ▸ hd)
      have hfilter : cs.filter (fun d => decide (((homingQueued c o s).outlet d).map (fun o => o.state) = some .held)) =
          cs.filter (fun d => decide ((s.outlet d).map (fun o => o.state) = some .held)) :=
        List.filter_congr fun d hd => by rw [(homingQueued_apart (hne hd) s o).1]
      rw [rehomeHeld_queues hf hh hm hcl hop ho hs]
      have hrest (d : Channel) (hd : d ∈ cs) : (homingQueued c o s).handedOff d = false ∧
          ((homingQueued c o s).position d).move = none ∧ d ∉ (homingQueued c o s).drive.closing ∧
          d ∉ (homingQueued c o s).drive.opening := by
        obtain ⟨hhd, hmd, hcld, hopd⟩ := hcs d (by simp [hd])
        refine ⟨hhd, by rw [(homingQueued_apart (hne hd) s o).2, hmd], fun hmem => ?_, hopd⟩
        exact (List.mem_append.1 hmem).elim hcld fun h => hne hd (List.mem_singleton.1 h).symm
      obtain ⟨ihclosing, ihopening⟩ := ih hn ((homingQueued_slotFree s c o).trans hf) hrest
      rw [ihclosing, ihopening, hfilter, List.filter_cons_of_pos (by simpa using hheld)]
      exact ⟨List.append_assoc .., rfl⟩
    · have hown : rehomeHeld s c = s := by
        cases ho : s.outlet c with
        | none => exact rehomeHeld_absent ho
        | some o => exact rehomeHeld_other ho (by simpa [ho] using hheld)
      rw [hown, List.filter_cons_of_neg (by simpa using hheld)]
      exact ih hn hf fun d hd => hcs d (by simp [hd])

end Sys2Proof.Machine
end

section
/-! A hand-off edge as a whole (R129 to R133). -/

namespace Sys2Proof.Machine

variable {s : State} {b : BankId} {c : Channel} {o : Outlet}

/-! ### The bank taken -/

theorem takeBank_handoff (hb : s.handoff.bho.get b = true) :
    (takeBank b s).handoff = { s.handoff with handedOff := s.handoff.handedOff.set b true } := by
  rw [takeBank_eq, raise_handoff, setHandedOff, bankHeld_handoff hb]

theorem takeBank_isPending (k : NoticeKind) :
    (takeBank b s).isPending k = ((bankHeld b s).isPending k || decide (k = .handoff)) :=
  raise_isPending ..

theorem takeBank_claim (d : Channel) : (takeBank b s).claim d = (bankHeld b s).claim d :=
  raise_claim ..

theorem takeBank_slot (j : SlotId) : (takeBank b s).slot j = (bankHeld b s).slot j :=
  raise_slot ..

theorem takeBank_bank (hb : s.handoff.bho.get b = true) (hc : bankOf c = b) :
    (takeBank b s).position c = (s.position c).released ∧
    c ∉ (takeBank b s).drive.closing ++ (takeBank b s).drive.opening ∧
    (takeBank b s).outlet c = (s.outlet c).map heldRecord := by
  rw [takeBank_eq, raise_position, raise_drive, raise_outlet]
  exact bankHeld_bank hb hc

/-- The table of R131 at one outlet. -/
theorem holdOutlet_table (ho : s.outlet c = some o) : holdOutlet s c =
    if o.state.eligible = true then failStepsOn c .handoff (s.setOutlet c (some { o with
      state := .held, assumedDraw := o.grant, grant := 0, effDemand := 0, warmTimer := none }))
    else if o.state = .homing ∨ o.state = .locked then failStepsOn c .handoff (s.setOutlet c (some { o with state := .held }))
    else s := by
  by_cases he : o.state.eligible = true
  · rw [if_pos he, ← heldRecord_eligible he]
    refine holdOutlet_holds ho ?_
    rintro (e | e) <;> rw [e] at he <;> cases he
  · rw [if_neg he]
    by_cases hs : o.state = .homing ∨ o.state = .locked
    · rw [if_pos hs, ← heldRecord_ineligible hs]
      refine holdOutlet_holds ho ?_
      rcases hs with e | e <;> simp [e]
    · rw [if_neg hs]
      refine holdOutlet_silent ho ?_
      cases e : o.state <;> simp [e, OutletState.eligible] at he hs ⊢

/-- The taking of a bank, channel by channel in ascending order (R130, R131). -/
theorem takeBank_folds {bank : List Channel} (hsorted : bank.Pairwise fun x y => x < y)
    (hmem : ∀ c : Channel, c ∈ bank ↔ bankOf c = b) {stop hold : State → Channel → State}
    (hstop : ∀ x c, stop x c = releaseDrive x c) (hhold : ∀ x c, hold x c = holdOutlet x c) :
    takeBank b s = raise .handoff (setHandedOff b true (bank.foldl hold (bank.foldl stop s))) := by
  obtain rfl : stop = releaseDrive := funext fun x => funext (hstop x)
  obtain rfl : hold = holdOutlet := funext fun x => funext (hhold x)
  rw [eq_bankChannels hsorted hmem]
  rfl

/-! ### The bank returned -/

theorem rehomeHeld_table (ho : s.outlet c = some o) : rehomeHeld s c =
    if o.state = .held then requestHoming c (s.setOutlet c (some { o with state := .homing })) else s := by
  by_cases hs : o.state = .held
  · rw [if_pos hs, rehomeHeld_held ho hs]
  · rw [if_neg hs, rehomeHeld_other ho hs]

theorem returnBank_handoff :
    (returnBank b s).handoff = { s.handoff with handedOff := s.handoff.handedOff.set b false } := by
  rw [returnBank, raise_handoff, foldl_rehomeHeld_handoff]
  rfl

theorem returnBank_folds {bank : List Channel} (hsorted : bank.Pairwise fun x y => x < y)
    (hmem : ∀ c : Channel, c ∈ bank ↔ bankOf c = b) {rehome : State → Channel → State}
    (hrehome : ∀ x c, rehome x c = rehomeHeld x c) :
    returnBank b s = raise .handoff (bank.foldl rehome (setHandedOff b false s)) := by
  obtain rfl : rehome = rehomeHeld := funext fun x => funext (hrehome x)
  rw [eq_bankChannels hsorted hmem]
  rfl

theorem returnBank_outlet (c : Channel) :
    (returnBank b s).outlet c = ((bankChannels b).foldl rehomeHeld (setHandedOff b false s)).outlet c :=
  raise_outlet ..

/-- An outlet of the bank that is not HELD stays as it was, but for the grants of the event (R133). -/
theorem returnBank_other (h : ∀ o : Outlet, s.outlet c = some o → o.state ≠ .held) :
    State.effectAt s c (returnBank b s) := by
  have heffect := foldl_rehomeHeld_kept (s := setHandedOff b false s) (bankChannels_nodup b) h
  refine ⟨?_, ?_, ?_⟩
  · rw [returnBank, State.olimActive, raise_drive]
    exact heffect.olim
  · rw [returnBank, State.climActive, raise_drive]
    exact heffect.clim
  · rw [returnBank_outlet]
    exact heffect.outlet

/-- What a HELD outlet of the bank comes to: it homes with its request standing, or a grant with CLIM active has ended its homing. -/
theorem returnBank_held (hc : bankOf c = b) (ho : s.outlet c = some o) (hs : o.state = .held) :
    ∃ u : Outlet, (returnBank b s).outlet c = some u ∧ u.fixed = o.fixed ∧ u.bars = o.bars ∧
      (u.state = .homing ∨ s.homesAtOnce c u ∨ s.failsAtOnce c u) ∧
      (u.state = .homing → ((returnBank b s).position c).homeReq = true) ∧
      (u.state = .homing → c ∉ s.drive.closing ++ s.drive.opening → u.assumedDraw = o.assumedDraw) := by
  obtain ⟨x, w, hbefore, how, hsw, hsame, hafter, hrequested⟩ :=
    foldl_rehomeHeld_held (s := setHandedOff b false s) (bankChannels_nodup b) (mem_bankChannels.2 hc) ho hs
  have hkept : w.fixed = o.fixed ∧ w.bars = o.bars := by
    rcases hbefore.outlet_some ho with e | ⟨-, e⟩
    · obtain rfl : w = o := Option.some.inj (how.symm.trans e)
      exact ⟨rfl, rfl⟩
    · obtain rfl := Option.some.inj (how.symm.trans e)
      exact ⟨(grantEffect_frame ..).1, (grantEffect_frame ..).2.1⟩
  have hset : (x.setOutlet c (some { w with state := .homing })).outlet c = some { w with state := .homing } :=
    (State.outlet_setOutlet ..).trans (if_pos rfl)
  have hrequest (u : Outlet) (hu : (returnBank b s).outlet c = some u) (hhoming : u.state = .homing) :
      ((returnBank b s).position c).homeReq = true := by
    rw [returnBank, raise_position]
    exact hrequested c rfl u ((returnBank_outlet c).symm.trans hu) hhoming
  rcases hafter.outlet_some hset with e | ⟨hclim, e⟩
  · refine ⟨_, (returnBank_outlet c).trans e, hkept.1, hkept.2, .inl rfl, hrequest _ ((returnBank_outlet c).trans e),
      fun _ hq => ?_⟩
    rw [← hsame hq]
  · have hclim' : s.climActive c = true := hbefore.clim.symm.trans hclim
    have holim : (x.setOutlet c (some { w with state := .homing })).olimActive c = s.olimActive c := hbefore.olim
    rw [holim] at e
    obtain ⟨hleft, hends⟩ := grantEffect_homing (o := { w with state := .homing }) rfl hclim'
    obtain ⟨hfixed, hbars, -⟩ := grantEffect_frame (s.olimActive c) { w with state := .homing }
    exact ⟨_, (returnBank_outlet c).trans e, hfixed.trans hkept.1, hbars.trans hkept.2, .inr hends,
      fun h => absurd h hleft, fun h => absurd h hleft⟩

/-- With no slot free, the homing requests join the tail of the closing tier in ascending channel order. -/
theorem returnBank_queues (hf : s.slotFree = false)
    (hstill : ∀ c ∈ bankChannels b, (s.position c).move = none ∧ c ∉ s.drive.closing ∧ c ∉ s.drive.opening) :
    (returnBank b s).drive.closing = s.drive.closing ++
      (bankChannels b).filter (fun c => decide ((s.outlet c).map (fun o => o.state) = some .held)) ∧
    (returnBank b s).drive.opening = s.drive.opening := by
  have hback (c : Channel) (hc : c ∈ bankChannels b) : (setHandedOff b false s).handedOff c = false := by
    rw [State.handedOff, mem_bankChannels.1 hc]
    exact (Table.get_set ..).trans (if_pos rfl)
  rw [returnBank, raise_drive]
  exact foldl_rehomeHeld_queues (s := setHandedOff b false s) (bankChannels_nodup b) hf fun c hc => ⟨hback c hc, hstill c hc⟩

/-- Settles O48: the taken bank channel by channel, its one claimed outlet, and the returned bank outlet by outlet. -/
theorem handOffTakesAndReturnsBank : Obligations.HandOffTakesAndReturnsBank := by
  unfold Obligations.HandOffTakesAndReturnsBank
  intro s b hr
  refine ⟨fun h => congrArg Host.Outcome.next (bhoAssertion_asserted h),
    fun h => congrArg Host.Outcome.next (bhoRelease_negated h),
    fun h hh => congrArg Host.Outcome.next (bhoAssertion_handedOff h hh),
    fun h hh => congrArg Host.Outcome.next (bhoRelease_kept h hh), fun h hh => ?_, fun h hh => ?_⟩
  · have hb : (setBho b true s).handoff.bho.get b = true := Table.get_set_same ..
    refine ⟨_, congrArg Host.Outcome.next (bhoAssertion_takes hr h hh), ?_, ?_, ?_, ?_, ?_, fun c hc => ⟨?_, ?_, ?_, ?_, ?_⟩⟩
    · rw [takeBank_handoff hb]
      rfl
    · rw [takeBank_handoff hb]
      rfl
    · rw [takeBank_isPending]
      simp
    · rintro bank u v hsorted hmem rfl rfl
      refine takeBank_folds hsorted hmem (fun x c => rfl) fun x c => ?_
      cases ho : x.outlet c with
      | none => exact (holdOutlet_absent ho).symm
      | some o => exact (holdOutlet_table ho).symm
    · intro c o h hc ho hheld hfaulted hquiet hfree hholder hn hw hends
      obtain ⟨hslot, hclaim, hpending⟩ := bankHeld_ends (s := setBho b true s) hb hc ho (not_or.2 ⟨hheld, hfaulted⟩)
        (hquiet.imp_left fun hm d hd => hm d (mem_bankChannels.1 hd)) hfree hholder hn hw hends
      refine ⟨?_, fun d hd => ?_, ?_, fun j hj => ⟨_, rfl, ?_⟩, fun j hj => ?_⟩
      · rw [takeBank_claim, hclaim, if_pos rfl]
      · rw [takeBank_claim, hclaim, if_neg (Ne.symm hd)]
        rfl
      · rw [takeBank_isPending, hpending]
        rfl
      · rw [takeBank_slot, hslot]
        exact if_pos hj
      · rw [takeBank_slot, hslot]
        exact if_neg hj
    · exact ⟨_, (takeBank_bank hb hc).1, rfl⟩
    · exact fun hq => (takeBank_bank hb hc).2.1 (List.mem_append_left _ hq)
    · exact fun hq => (takeBank_bank hb hc).2.1 (List.mem_append_right _ hq)
    · intro ho
      rw [(takeBank_bank hb hc).2.2]
      exact congrArg (Option.map heldRecord) ho
    · intro o ho
      have hrecord : (takeBank b (setBho b true s)).outlet c = some (heldRecord o) :=
        (takeBank_bank hb hc).2.2.trans (congrArg (Option.map heldRecord) ho)
      rw [hrecord]
      exact ⟨fun hs => congrArg some (heldRecord_eligible hs), fun hs => congrArg some (heldRecord_ineligible hs),
        fun hs => congrArg some (heldRecord_silent hs)⟩
  · refine ⟨_, congrArg Host.Outcome.next (bhoRelease_returns hr h hh), ?_, ?_, ?_, fun bank hsorted hmem => ⟨?_, ?_⟩,
      fun c hc => ⟨fun ho => ?_, fun o ho => ?_⟩⟩
    · rw [returnBank_handoff]
      rfl
    · rw [returnBank_handoff]
      rfl
    · rw [returnBank, raise_isPending]
      simp
    · refine returnBank_folds hsorted hmem fun x c => ?_
      cases ho : x.outlet c with
      | none => exact (rehomeHeld_absent ho).symm
      | some o => exact (rehomeHeld_table ho).symm
    · rw [eq_bankChannels hsorted hmem]
      exact returnBank_queues (s := setBho b false s)
    · have hkept := returnBank_other (b := b) (s := setBho b false s) (c := c) fun o ho' => by cases ho.symm.trans ho'
      rcases hkept.outlet with e | ⟨-, e⟩
      · exact e.trans ho
      · exact e.trans (congrArg (Option.map _) ho)
    by_cases hs : o.state = .held
    · obtain ⟨u, hu, hfixed, hbars, hends, hrequest, hdraw⟩ := returnBank_held (s := setBho b false s) hc ho hs
      refine ⟨u, hu, hfixed, hbars, fun hf => ?_, fun _ => hends, fun _ => hrequest, fun _ hhoming _ _ hcl hop => ?_⟩
      · cases hs.symm.trans hf
      · exact hdraw hhoming (by rw [List.mem_append]; exact not_or.2 ⟨hcl, hop⟩)
    · have hkept := returnBank_other (b := b) (s := setBho b false s) (c := c) fun o' ho' => by
        obtain rfl : o = o' := Option.some.inj (ho.symm.trans ho')
        exact hs
      rcases hkept.outlet_some ho with e | ⟨-, e⟩
      · exact ⟨o, e, rfl, rfl, id, fun h => absurd h hs, fun h => absurd h hs, fun h => absurd h hs⟩
      · obtain ⟨hfixed, hbars, -, hfaulted⟩ := grantEffect_frame (s.olimActive c) o
        exact ⟨_, e, hfixed, hbars, hfaulted, fun h => absurd h hs, fun h => absurd h hs, fun h => absurd h hs⟩

end Sys2Proof.Machine
end

section
/-! One task of the Duty Program Unit: what the step in progress gives up (R143, R153), and the updates of a slot and of a claim that
keep the claims right (R144 to R146). -/

namespace Sys2Proof.Machine

variable {s t u : State} {c d : Channel} {i j : SlotId}

/-! ### Rules of the updates -/

theorem State.slot_setSlot_same (s : State) (i : SlotId) (x : ProgSlot) : (s.setSlot i x).slot i = x :=
  (State.slot_setSlot ..).trans (if_pos rfl)

theorem State.claim_setClaim_same (s : State) (c : Channel) (x : Claim) : (s.setClaim c x).claim c = x :=
  (State.claim_setClaim ..).trans (if_pos rfl)

theorem State.setClaim_setClaim (s : State) (c : Channel) (x y : Claim) : (s.setClaim c x).setClaim c y = s.setClaim c y := by
  simp [State.setClaim]

theorem State.setClaim_claim (s : State) (c : Channel) : s.setClaim c (s.claim c) = s := by
  simp [State.setClaim, State.claim]

/-! ### Beginning and taking -/

theorem beginFailure_congr (h : t.outlets = s.outlets) (c : Channel) : beginFailure c t = beginFailure c s := by
  simp [beginFailure, State.outlet, h]

section
variable {idx : Nat} {st : Step}

theorem beginStep_absent (hst : (s.slot i).steps[idx - 1]? = none) : beginStep i idx s = (s, []) := by
  simp [beginStep, hst]

theorem beginStep_fails {why : FailReason} (hst : (s.slot i).steps[idx - 1]? = some st)
    (hf : beginFailure st.channel s = some why) :
    beginStep i idx s = (s.setSlot i ((s.slot i).begun idx st), [.fail i why]) := by
  have hf' : beginFailure st.channel (s.setSlot i ((s.slot i).begun idx st)) = some why := hf
  unfold ProgSlot.begun at hf' ⊢
  simp only [beginStep, hst, State.modifySlot, hf']

theorem beginStep_waits {h : Holder} (hst : (s.slot i).steps[idx - 1]? = some st) (hf : beginFailure st.channel s = none)
    (hh : (s.claim st.channel).holder = some h) : beginStep i idx s =
      ((s.setSlot i ((s.slot i).begun idx st)).setClaim st.channel
        { s.claim st.channel with waiters := (s.claim st.channel).waiters ++ [i] }, []) := by
  have hf' : beginFailure st.channel (s.setSlot i ((s.slot i).begun idx st)) = none := hf
  unfold ProgSlot.begun at hf' ⊢
  simp [beginStep, hst, State.modifySlot, hf', hh]

theorem beginStep_takes (hst : (s.slot i).steps[idx - 1]? = some st) (hf : beginFailure st.channel s = none)
    (hh : (s.claim st.channel).holder = none) :
    beginStep i idx s = (s.setSlot i ((s.slot i).begun idx st), [.take st.channel i]) := by
  have hf' : beginFailure st.channel (s.setSlot i ((s.slot i).begun idx st)) = none := hf
  unfold ProgSlot.begun at hf' ⊢
  simp [beginStep, hst, State.modifySlot, hf', hh]

/-- The claim of `c` taken by the step `st` of slot `i` (R146). -/
def State.claimTaken (s : State) (c : Channel) (i : SlotId) (st : Step) : State :=
  s.setClaim c { holder := some { slot := i, step := (s.slot i).curStep, kw := claimDemand c st s },
                 waiters := (s.claim c).waiters.filter fun x => x ≠ i }

theorem takeClaim_idle (hst : (s.slot i).currentStep = none) : takeClaim c i s = (s, []) := by
  simp [takeClaim, hst]

theorem takeClaim_fails (hst : (s.slot i).currentStep = some st) (ht : st.targetTemp ≠ 0)
    (hf : (s.sensor (branchInput c)).faulted = true) : takeClaim c i s = (s.claimTaken c i st, [.fail i .sensor]) := by
  simp [takeClaim, hst, Step.needsTemp, ht, hf, State.claimTaken]

theorem takeClaim_reaches (hst : (s.slot i).currentStep = some st) (ht : st.targetTemp ≠ 0)
    (hf : (s.sensor (branchInput c)).faulted = false) :
    takeClaim c i s = ((s.claimTaken c i st).setSlot i { s.slot i with phase := .reaching }, []) := by
  simp [takeClaim, hst, Step.needsTemp, ht, hf, State.claimTaken, State.modifySlot]

theorem takeClaim_holds (hst : (s.slot i).currentStep = some st) (ht : st.targetTemp = 0) : takeClaim c i s =
    ((s.claimTaken c i st).setSlot i
      { s.slot i with phase := .holding, reach := none, hold := some (st.holdMin * 60) },
      if st.holdMin = 0 then [.pass i] else []) := by
  simp [takeClaim, hst, Step.needsTemp, ht, State.claimTaken, State.modifySlot]

end

/-! ### What the step in progress gives up -/

theorem releaseStep_idle (h : (s.slot i).currentStep = none) : releaseStep i s = (s, []) := by
  simp [releaseStep, h]

theorem releaseStep_holder {st : Step} {h : Holder} (hst : (s.slot i).currentStep = some st)
    (hh : (s.claim st.channel).holder = some h) (hi : h.slot = i) : releaseStep i s =
      (s.setClaim st.channel { s.claim st.channel with holder := none }, [.passOn st.channel]) := by
  simp [releaseStep, hst, hh, hi]

theorem releaseStep_waiter {st : Step} (hst : (s.slot i).currentStep = some st)
    (hh : ∀ h : Holder, (s.claim st.channel).holder = some h → h.slot ≠ i) : releaseStep i s =
      (s.setClaim st.channel { s.claim st.channel with waiters := (s.claim st.channel).waiters.filter fun x => x ≠ i }, []) := by
  have hany : (s.claim st.channel).holder.any (fun h => h.slot == i) = false := by
    cases hc : (s.claim st.channel).holder with
    | none => rfl
    | some h => simpa using hh h hc
  simp [releaseStep, hst, hany]

/-! ### Places at a claim -/

/-- Slot `i` waits in the claim queue of `c`. -/
def State.waitsAt (s : State) (c : Channel) (i : SlotId) : Prop :=
  i ∈ (s.claim c).waiters

/-- Slot `i` holds the claim of `c`. -/
def State.holdsAt (s : State) (c : Channel) (i : SlotId) : Prop :=
  ∃ h ∈ (s.claim c).holder, h.slot = i

/-- The slot has no place at any claim. -/
def State.unclaimed (s : State) (i : SlotId) : Prop :=
  ∀ c, ¬s.waitsAt c i ∧ ¬s.holdsAt c i

/-- The slot's step in progress is on outlet `c`. -/
def ProgSlot.stepOn (x : ProgSlot) (c : Channel) : Prop :=
  x.phase ≠ .none ∧ x.currentStep.map (fun st => st.channel) = some c

theorem State.stepOn_iff : s.stepOn c i ↔ (s.slot i).stepOn c := Iff.rfl

/-- A step is on one outlet. -/
theorem State.stepOn_unique (hc : s.stepOn c i) (hd : s.stepOn d i) : c = d :=
  Option.some.inj (hc.2.symm.trans hd.2)

/-- A claim that fits the outlet whose steps `on` names (R144 to R146). -/
def Claim.fits (x : Claim) (on : SlotId → Prop) : Prop :=
  x.waiters.Nodup ∧ (∀ i ∈ x.waiters, on i) ∧ ∀ h ∈ x.holder, h.slot ∉ x.waiters ∧ on h.slot

theorem Claim.fits.imp {x : Claim} {p q : SlotId → Prop} (h : x.fits p)
    (hw : ∀ i, i ∈ x.waiters ∨ (∃ h ∈ x.holder, h.slot = i) → p i → q i) : x.fits q := by
  obtain ⟨hn, hon, hh⟩ := h
  exact ⟨hn, fun i hi => hw i (.inl hi) (hon i hi), fun h hm => ⟨(hh h hm).1, hw _ (.inr ⟨h, hm, rfl⟩) (hh h hm).2⟩⟩

namespace State.claimsRight

theorem waitsOn (h : s.claimsRight) (hw : s.waitsAt c i) : s.stepOn c i := by
  obtain ⟨-, hwait, -⟩ := h.2 c
  exact hwait i hw

theorem holdsOn (h : s.claimsRight) (hh : s.holdsAt c i) : s.stepOn c i := by
  obtain ⟨x, hx, rfl⟩ := hh
  exact ((h.2 c).2.2 x hx).2

theorem not_holdsAt_of_waitsAt (h : s.claimsRight) (hw : s.waitsAt c i) : ¬s.holdsAt c i := by
  rintro ⟨x, hx, rfl⟩
  exact ((h.2 c).2.2 x hx).1 hw

/-- A slot with no step in progress has no place at a claim. -/
theorem unclaimed (h : s.claimsRight) (hp : (s.slot i).phase = .none) : s.unclaimed i := fun _ =>
  ⟨fun hw => (h.waitsOn hw).1 hp, fun hh => (h.holdsOn hh).1 hp⟩

/-- A step that is on no outlet has no place at a claim. -/
theorem unclaimed_of_idle (h : s.claimsRight) (hst : (s.slot i).currentStep = none) : s.unclaimed i := by
  have hno : ∀ c, ¬s.stepOn c i := fun c hc => by
    have := hc.2
    rw [hst] at this
    cases this
  exact fun c => ⟨fun hw => hno c (h.waitsOn hw), fun hh => hno c (h.holdsOn hh)⟩

/-- The slots and the claims carry the invariant. -/
theorem congr (h : s.claimsRight) (hd : t.duty = s.duty) : t.claimsRight := by
  have hslot : t.slot = s.slot := by funext i; rw [State.slot, hd]; rfl
  have hclaim : t.claim = s.claim := by funext c; rw [State.claim, hd]; rfl
  simp only [State.claimsRight, State.stepOn, hslot, hclaim] at h ⊢
  exact h

theorem setClaim (h : s.claimsRight) {x : Claim} (hx : x.fits (s.stepOn c)) : (s.setClaim c x).claimsRight := by
  refine ⟨h.1, fun d => ?_⟩
  rw [State.claim_setClaim]
  split
  · next e => subst e; exact hx
  · exact h.2 d

/-- A slot may be written so that its timers are right and its places at claims stay places of its step. -/
theorem setSlot (h : s.claimsRight) {x : ProgSlot} (hx : x.timersRight)
    (hplace : ∀ c, s.waitsAt c i ∨ s.holdsAt c i → x.stepOn c) : (s.setSlot i x).claimsRight := by
  refine ⟨fun j => ?_, fun c => Claim.fits.imp (h.2 c) fun j hj hon => ?_⟩
  · rw [State.slot_setSlot]
    split
    · exact hx
    · exact h.1 j
  · rw [State.stepOn_iff, State.slot_setSlot]
    split
    · next e => subst e; exact hplace c hj
    · exact hon

theorem setSlot_unclaimed (h : s.claimsRight) (hi : s.unclaimed i) {x : ProgSlot} (hx : x.timersRight) :
    (s.setSlot i x).claimsRight :=
  h.setSlot hx fun c hc => absurd hc (not_or.2 (hi c))

/-- A slot written with its step in progress as it was. -/
theorem setSlot_inProgress (h : s.claimsRight) {x : ProgSlot} (hx : x.timersRight) (hp : x.phase ≠ .none)
    (hcur : x.curStep = (s.slot i).curStep) (hsteps : x.steps = (s.slot i).steps) : (s.setSlot i x).claimsRight := by
  refine h.setSlot hx fun c hc => ⟨hp, ?_⟩
  have hon : s.stepOn c i := hc.elim h.waitsOn h.holdsOn
  have hcurrent : x.currentStep = (s.slot i).currentStep := by
    simp only [ProgSlot.currentStep, hp, hon.1, false_or, hcur, hsteps]
  rw [hcurrent]
  exact hon.2

end State.claimsRight

/-! ### Slots left alone -/

/-- Slot `j` is left as it is, and gets no new place at a claim. -/
def State.leaves (s t : State) (j : SlotId) : Prop :=
  t.slot j = s.slot j ∧ ∀ c, (t.waitsAt c j → s.waitsAt c j) ∧ (t.holdsAt c j → s.holdsAt c j)

theorem State.leaves_refl (s : State) (j : SlotId) : s.leaves s j := ⟨rfl, fun _ => ⟨id, id⟩⟩

theorem State.leaves.trans (h : s.leaves t j) (h' : t.leaves u j) : s.leaves u j :=
  ⟨h'.1.trans h.1, fun c => ⟨fun hw => (h.2 c).1 ((h'.2 c).1 hw), fun hh => (h.2 c).2 ((h'.2 c).2 hh)⟩⟩

theorem State.leaves.unclaimed (h : s.leaves t j) (hj : s.unclaimed j) : t.unclaimed j := fun c =>
  ⟨fun hw => (hj c).1 ((h.2 c).1 hw), fun hh => (hj c).2 ((h.2 c).2 hh)⟩

theorem State.leaves_congr (h : t.duty = s.duty) : s.leaves t j := by
  have hslot : t.slot j = s.slot j := by rw [State.slot, h]; rfl
  have hclaim : ∀ c, t.claim c = s.claim c := fun c => by rw [State.claim, h]; rfl
  exact ⟨hslot, fun c => ⟨by rw [State.waitsAt, hclaim]; exact id, by rw [State.holdsAt, hclaim]; exact id⟩⟩

theorem State.leaves_setSlot (hj : i ≠ j) (x : ProgSlot) : s.leaves (s.setSlot i x) j :=
  ⟨by rw [State.slot_setSlot, if_neg hj], fun _ => ⟨id, id⟩⟩

theorem State.leaves_setClaim {x : Claim} (hw : j ∈ x.waiters → s.waitsAt c j) (hh : ∀ h ∈ x.holder, h.slot = j → s.holdsAt c j) :
    s.leaves (s.setClaim c x) j := by
  refine ⟨rfl, fun d => ?_⟩
  rw [State.waitsAt, State.holdsAt, State.claim_setClaim]
  split
  · next e =>
    subst e
    exact ⟨hw, fun ⟨h, hm, e⟩ => hh h hm e⟩
  · exact ⟨id, id⟩

/-! ### The release as a whole -/

/-- What a step in progress is left with once it has given up its place (R153, 1): nothing, and the claim it held passes on. -/
theorem releaseStep_releases (h : s.claimsRight) (i : SlotId) :
    (releaseStep i s).1.claimsRight ∧ (releaseStep i s).1.unclaimed i ∧ (∀ j, s.leaves (releaseStep i s).1 j) ∧
    ((releaseStep i s).2 = [] ∨ ∃ c, s.holdsAt c i ∧ (releaseStep i s).2 = [.passOn c]) := by
  cases hst : (s.slot i).currentStep with
  | none =>
    rw [releaseStep_idle hst]
    exact ⟨h, h.unclaimed_of_idle hst, s.leaves_refl, .inl rfl⟩
  | some st =>
    obtain ⟨hn, hon, hholder⟩ := h.2 st.channel
    have helse : ∀ d, st.channel ≠ d → ¬s.stepOn d i := fun d hd hc => hd (by simpa [hst] using hc.2)
    have hfree (x : Claim) (hx : i ∉ x.waiters ∧ ∀ k ∈ x.holder, k.slot ≠ i) : (s.setClaim st.channel x).unclaimed i := by
      intro d
      rw [State.waitsAt, State.holdsAt, State.claim_setClaim]
      split
      · exact ⟨hx.1, fun ⟨k, hm, e⟩ => hx.2 k hm e⟩
      · next e => exact ⟨fun hw => helse d e (h.waitsOn hw), fun hk => helse d e (h.holdsOn hk)⟩
    by_cases hhold : ∃ k : Holder, (s.claim st.channel).holder = some k ∧ k.slot = i
    · obtain ⟨k, hk, hki⟩ := hhold
      rw [releaseStep_holder hst hk hki]
      refine ⟨h.setClaim ⟨hn, hon, by simp⟩, hfree _ ⟨hki ▸ (hholder k hk).1, by simp⟩,
        fun j => State.leaves_setClaim id (by simp), .inr ⟨st.channel, ⟨k, hk, hki⟩, rfl⟩⟩
    · have hhold' : ∀ k : Holder, (s.claim st.channel).holder = some k → k.slot ≠ i := fun k hk e => hhold ⟨k, hk, e⟩
      rw [releaseStep_waiter hst hhold']
      refine ⟨h.setClaim ⟨hn.filter _, fun j hj => hon j (List.mem_of_mem_filter hj), fun k hk => ⟨fun hm => ?_, (hholder k hk).2⟩⟩,
        hfree _ ⟨by simp, hhold'⟩, fun j => State.leaves_setClaim List.mem_of_mem_filter (fun k hk e => ⟨k, hk, e⟩), .inl rfl⟩
      exact (hholder k hk).1 (List.mem_of_mem_filter hm)

end Sys2Proof.Machine
end

section
/-! The chain of duty tasks of one event keeps the claims right (R144 to R154): each task finds its slot as it needs it, works on that
slot alone, and puts in front only tasks that find their slots so. -/

namespace Sys2Proof.Machine

variable {s t u : State} {c d : Channel} {i j : SlotId}

/-! ### What a task needs -/

/-- The slot whose step or run the task works on. -/
def DutyTask.owner : DutyTask → Option SlotId
  | .begin_ i _ | .take _ i | .pass i | .fail i _ | .settle i _ | .goOn i => some i
  | .passOn _ => none

/-- The task gives the free claim of `c` to a step. -/
def DutyTask.reaches (x : DutyTask) (c : Channel) : Prop :=
  x = .passOn c ∨ ∃ i, x = .take c i

/-- The task waits behind what a released claim sets off. -/
def DutyTask.resting : DutyTask → Prop
  | .passOn _ | .settle _ _ | .goOn _ => True
  | .begin_ _ _ | .take _ _ | .pass _ | .fail _ _ => False

/-- A slot of a run with no step in progress. -/
def ProgSlot.betweenSteps (x : ProgSlot) : Prop :=
  x.phase = .none ∧ x.state = .running ∧ x.gap = none

/-- The task finds its slot as it needs it. -/
def State.taskReady (s : State) : DutyTask → Prop
  | .begin_ i idx => 1 ≤ idx ∧ (s.slot i).betweenSteps
  | .take c i => s.stepOn c i
  | .passOn _ => True
  | .pass i | .fail i _ => (s.slot i).phase ≠ .none
  | .settle i _ => (s.slot i).phase ≠ .none ∧ s.unclaimed i
  | .goOn i => (s.slot i).betweenSteps

theorem State.leaves.ready {x : DutyTask} (hx : s.taskReady x) (h : ∀ j, x.owner = some j → s.leaves u j) :
    u.taskReady x := by
  cases x with
  | passOn c => trivial
  | take c i =>
    have hi := h i rfl
    rw [State.taskReady, State.stepOn_iff, hi.1]
    exact hx
  | settle i r =>
    have hi := h i rfl
    exact ⟨by rw [hi.1]; exact hx.1, hi.unclaimed hx.2⟩
  | begin_ i idx | pass i | fail i r | goOn i =>
    have hi := h i rfl
    simp only [State.taskReady, hi.1]
    exact hx

/-! ### What a task does -/

/-- What a task that finds its slot ready does: the claims stay right, only its own slot is worked on, and the tasks it puts in front
are ready, at most one of them with a slot, which is the task's own or the head of the queue that the claim passes to. -/
structure State.TaskRuns (s : State) (x : DutyTask) (u : State) (new : List DutyTask) : Prop where
  right : u.claimsRight
  leaves : ∀ j, x.owner ≠ some j → s.leaves u j
  holds : ∀ c i, u.holdsAt c i → s.holdsAt c i ∨ x = .take c i
  ready : ∀ y ∈ new, u.taskReady y
  resting : ∀ y ∈ new.tail, y.resting
  single : (new.filterMap DutyTask.owner).length ≤ 1
  owned : ∀ y ∈ new, ∀ i, y.owner = some i → x.owner = some i ∨ ∃ c, x = .passOn c ∧ s.waitsAt c i
  reaching : ∀ y ∈ new, ∀ c, y.reaches c →
    x.reaches c ∨ (∃ i, x.owner = some i ∧ s.holdsAt c i) ∨ beginFailure c s = none

theorem State.TaskRuns.idle {x : DutyTask} (h : s.claimsRight) : s.TaskRuns x s [] :=
  ⟨h, fun j _ => s.leaves_refl j, fun _ _ => .inl, by simp, by simp, by simp, by simp, by simp⟩

/-- A task that puts at most one task in front, for its own slot. -/
theorem State.TaskRuns.of_own {x : DutyTask} {new : List DutyTask} (hx : x.owner = some i) (hright : u.claimsRight)
    (hleaves : ∀ j, i ≠ j → s.leaves u j) (hholds : ∀ c j, u.holdsAt c j → s.holdsAt c j ∨ x = .take c j)
    (hnew : new = [] ∨ ∃ y, new = [y] ∧ y.owner = some i ∧ u.taskReady y ∧ ∀ c, y.reaches c → beginFailure c s = none) :
    s.TaskRuns x u new := by
  refine ⟨hright, fun j hj => hleaves j fun e => hj (e ▸ hx), hholds, ?_, ?_, ?_, ?_, ?_⟩
  all_goals rcases hnew with rfl | ⟨y, rfl, ho, hready, hreach⟩
  case refine_1.inr => simpa using hready
  case refine_3.inr => simp [ho]
  case refine_4.inr =>
    intro y' hy' k hk
    obtain rfl := List.mem_singleton.1 hy'
    exact .inl (by rw [hx, ← ho, hk])
  case refine_5.inr =>
    intro y' hy' c hc
    obtain rfl := List.mem_singleton.1 hy'
    exact .inr (.inr (hreach c hc))
  all_goals simp

/-! ### Beginning and taking (R145, R146) -/

theorem begun_timersRight {x : ProgSlot} (h : x.betweenSteps) (idx : Nat) (st : Step) : (x.begun idx st).timersRight :=
  ⟨fun _ => h.2, fun _ => by simp [ProgSlot.begun], fun hg => absurd h.2.2 hg⟩

theorem begun_stepOn {x : ProgSlot} {idx : Nat} {st : Step} (hidx : 1 ≤ idx) (hst : x.steps[idx - 1]? = some st) :
    (x.begun idx st).stepOn st.channel := by
  refine ⟨by simp [ProgSlot.begun], ?_⟩
  simp only [ProgSlot.currentStep, ProgSlot.begun, reduceCtorEq, false_or]
  rw [if_neg (by omega), hst]
  rfl

theorem beginStep_runs {idx : Nat} (h : s.claimsRight) (hr : s.taskReady (.begin_ i idx)) :
    s.TaskRuns (.begin_ i idx) (beginStep i idx s).1 (beginStep i idx s).2 := by
  obtain ⟨hidx, hx⟩ := hr
  have hfree := h.unclaimed hx.1
  cases hst : (s.slot i).steps[idx - 1]? with
  | none =>
    rw [beginStep_absent hst]
    exact .idle h
  | some st =>
    have hright : (s.setSlot i ((s.slot i).begun idx st)).claimsRight :=
      h.setSlot_unclaimed hfree (begun_timersRight hx idx st)
    have hon : (s.setSlot i ((s.slot i).begun idx st)).stepOn st.channel i := by
      rw [State.stepOn_iff, State.slot_setSlot_same]
      exact begun_stepOn hidx hst
    have hleaves : ∀ j, i ≠ j → s.leaves (s.setSlot i ((s.slot i).begun idx st)) j := fun j hj => State.leaves_setSlot hj _
    cases hf : beginFailure st.channel s with
    | some why =>
      rw [beginStep_fails hst hf]
      exact .of_own rfl hright hleaves (fun _ _ => .inl) (.inr ⟨_, rfl, rfl, hon.1, by simp [DutyTask.reaches]⟩)
    | none =>
      cases hh : (s.claim st.channel).holder with
      | none =>
        rw [beginStep_takes hst hf hh]
        refine .of_own rfl hright hleaves (fun _ _ => .inl) (.inr ⟨_, rfl, rfl, hon, fun c hc => ?_⟩)
        rcases hc with hc | ⟨k, hc⟩
        · cases hc
        · cases hc
          exact hf
      | some k =>
        rw [beginStep_waits hst hf hh]
        obtain ⟨hn, hwait, hhold⟩ := hright.2 st.channel
        have hjoined : ∀ j, j ∈ (s.claim st.channel).waiters ++ [i] ↔ j ∈ (s.claim st.channel).waiters ∨ j = i := by simp
        refine .of_own rfl (hright.setClaim ⟨?_, fun j hj => ?_, fun k hk => ⟨fun hm => ?_, (hhold k hk).2⟩⟩)
          (fun j hj => (hleaves j hj).trans (State.leaves_setClaim (fun hm => ?_) fun k hk e => ⟨k, hk, e⟩)) (fun c j => ?_)
          (.inl rfl)
        · exact List.nodup_append.2 ⟨hn, by simp, fun a ha b hb e =>
            (hfree st.channel).1 (List.mem_singleton.1 hb ▸ e ▸ ha)⟩
        · rcases (hjoined j).1 hj with hj | rfl
          · exact hwait j hj
          · exact hon
        · rcases (hjoined k.slot).1 hm with hm | e
          · exact (hhold k hk).1 hm
          · exact (hfree st.channel).2 ⟨k, hk, e⟩
        · exact ((hjoined j).1 hm).resolve_right fun e => hj e.symm
        · rw [State.holdsAt, State.claim_setClaim]
          split
          · next e => subst e; exact .inl
          · exact .inl

theorem claimTaken_claimsRight (h : s.claimsRight) (hon : s.stepOn c i) (st : Step) : (s.claimTaken c i st).claimsRight := by
  obtain ⟨hn, hwait, -⟩ := h.2 c
  exact h.setClaim ⟨hn.filter _, fun j hj => hwait j (List.mem_of_mem_filter hj), by simpa using hon⟩

theorem claimTaken_leaves (c : Channel) (st : Step) (hj : i ≠ j) : s.leaves (s.claimTaken c i st) j :=
  State.leaves_setClaim List.mem_of_mem_filter fun h hk e => absurd (by rw [← e, ← Option.some.inj hk]) hj

theorem claimTaken_holdsAt {st : Step} (hh : (s.claimTaken c i st).holdsAt d j) :
    s.holdsAt d j ∨ DutyTask.take c i = .take d j := by
  rw [State.holdsAt, State.claimTaken, State.claim_setClaim] at hh
  split at hh
  · next e =>
    obtain ⟨k, hk, rfl⟩ := hh
    obtain rfl := Option.some.inj hk
    exact .inr (by rw [e])
  · exact .inl hh

theorem takeClaim_runs (h : s.claimsRight) (hon : s.stepOn c i) :
    s.TaskRuns (.take c i) (takeClaim c i s).1 (takeClaim c i s).2 := by
  obtain ⟨hstate, hgap⟩ := (h.1 i).1 hon.1
  cases hst : (s.slot i).currentStep with
  | none =>
    rw [takeClaim_idle hst]
    exact .idle h
  | some st =>
    have hright := claimTaken_claimsRight h hon st
    have hleaves (x : ProgSlot) (j : SlotId) (hj : i ≠ j) : s.leaves ((s.claimTaken c i st).setSlot i x) j :=
      (claimTaken_leaves c st hj).trans (State.leaves_setSlot hj x)
    by_cases ht : st.targetTemp = 0
    · rw [takeClaim_holds hst ht]
      refine .of_own rfl (hright.setSlot_inProgress ⟨fun _ => ⟨hstate, hgap⟩, fun _ => by simp, fun _ => hstate⟩ (by simp) rfl rfl)
        (hleaves _) (fun _ _ => claimTaken_holdsAt) ?_
      split
      · refine .inr ⟨_, rfl, rfl, ?_, by simp [DutyTask.reaches]⟩
        simp [State.taskReady, State.slot_setSlot_same]
      · exact .inl rfl
    · cases hf : (s.sensor (branchInput c)).faulted with
      | true =>
        rw [takeClaim_fails hst ht hf]
        exact .of_own rfl hright (fun j hj => claimTaken_leaves c st hj) (fun _ _ => claimTaken_holdsAt)
          (.inr ⟨_, rfl, rfl, hon.1, by simp [DutyTask.reaches]⟩)
      | false =>
        rw [takeClaim_reaches hst ht hf]
        exact .of_own rfl (hright.setSlot_inProgress ⟨fun _ => ⟨hstate, hgap⟩, fun _ => by simp, fun _ => hstate⟩ (by simp) rfl
          rfl) (hleaves _) (fun _ _ => claimTaken_holdsAt) (.inl rfl)

theorem passOnClaim_runs (h : s.claimsRight) (c : Channel) :
    s.TaskRuns (.passOn c) (passOnClaim c s).1 (passOnClaim c s).2 := by
  unfold passOnClaim
  split
  · exact .idle h
  · next k rest hw =>
    have hk : s.waitsAt c k := by simp [State.waitsAt, hw]
    refine ⟨h, fun j _ => s.leaves_refl j, fun _ _ => .inl, ?_, by simp, by simp [DutyTask.owner], ?_, ?_⟩
    · simpa [State.taskReady] using h.waitsOn hk
    · intro y hy j hj
      obtain rfl := List.mem_singleton.1 hy
      cases hj
      exact .inr ⟨c, rfl, hk⟩
    · intro y hy d hd
      obtain rfl := List.mem_singleton.1 hy
      rcases hd with hd | ⟨j, hd⟩
      · cases hd
      · cases hd
        exact .inl (.inl rfl)

/-! ### Passing and failing (R149, R153) -/

/-- A slot's own task that gives up its place, and then goes on with that slot. -/
theorem State.TaskRuns.of_release {x y : DutyTask} {v : State} {new : List DutyTask} (hx : x.owner = some i)
    (hright : v.claimsRight) (hleaves : ∀ j, i ≠ j → s.leaves v j) (hholds : ∀ c j, v.holdsAt c j → s.holdsAt c j)
    (hy : y.owner = some i) (hready : v.taskReady y) (hresting : y.resting) (hreach : ∀ c, ¬y.reaches c)
    (hnew : new = [] ∨ ∃ c, s.holdsAt c i ∧ new = [.passOn c]) : s.TaskRuns x v (new ++ [y]) := by
  have hmem : ∀ z ∈ new ++ [y], z = y ∨ ∃ c, s.holdsAt c i ∧ z = .passOn c := by
    intro z hz
    rcases hnew with rfl | ⟨c, hc, rfl⟩
    · exact .inl (by simpa using hz)
    · rcases List.mem_cons.1 hz with rfl | hz
      · exact .inr ⟨c, hc, rfl⟩
      · exact .inl (List.mem_singleton.1 hz)
  refine ⟨hright, fun j hj => hleaves j fun e => hj (e ▸ hx), fun c j hc => .inl (hholds c j hc), ?_, ?_, ?_, ?_, ?_⟩
  · intro z hz
    rcases hmem z hz with rfl | ⟨c, -, rfl⟩
    · exact hready
    · trivial
  · intro z hz
    rcases hmem z (List.mem_of_mem_tail hz) with rfl | ⟨c, -, rfl⟩
    · exact hresting
    · trivial
  · have hone : ([y].filterMap DutyTask.owner).length ≤ 1 := List.length_filterMap_le _ [y]
    rcases hnew with rfl | ⟨c, -, rfl⟩ <;> exact hone
  · intro z hz k hk
    rcases hmem z hz with rfl | ⟨c, -, rfl⟩
    · exact .inl (by rw [hx, ← hy, hk])
    · cases hk
  · intro z hz d hd
    rcases hmem z hz with rfl | ⟨c, hc, rfl⟩
    · exact absurd hd (hreach d)
    · rcases hd with hd | ⟨k, hd⟩
      · cases hd
        exact .inr (.inl ⟨i, hx, hc⟩)
      · cases hd

theorem failStep_runs (h : s.claimsRight) (why : FailReason) (hp : (s.slot i).phase ≠ .none) :
    s.TaskRuns (.fail i why) (failStep i why s).1 (failStep i why s).2 := by
  obtain ⟨hright, hfree, hleaves, hnew⟩ := releaseStep_releases h i
  refine .of_release rfl hright (fun j _ => hleaves j) (fun c j => ((hleaves j).2 c).2) rfl ⟨?_, hfree⟩ trivial
    (by simp [DutyTask.reaches]) hnew
  exact (hleaves i).1.symm ▸ hp

theorem passStep_runs (h : s.claimsRight) (hp : (s.slot i).phase ≠ .none) :
    s.TaskRuns (.pass i) (passStep i s).1 (passStep i s).2 := by
  obtain ⟨hstate, hgap⟩ := (h.1 i).1 hp
  have hrec : (recordResult i .passed s).claimsRight :=
    h.setSlot_inProgress ⟨fun _ => ⟨hstate, hgap⟩, by simp, fun _ => hstate⟩ hp rfl rfl
  obtain ⟨hright, hfree, hleaves, hnew⟩ := releaseStep_releases hrec i
  obtain ⟨hstate', hgap', hreach', hhold'⟩ : ((releaseStep i (recordResult i .passed s)).1.slot i).state = .running ∧
      ((releaseStep i (recordResult i .passed s)).1.slot i).gap = none ∧
      ((releaseStep i (recordResult i .passed s)).1.slot i).reach = none ∧
      ((releaseStep i (recordResult i .passed s)).1.slot i).hold = none := by
    rw [(hleaves i).1, recordResult, State.slot_modifySlot, if_pos rfl]
    exact ⟨hstate, hgap, rfl, rfl⟩
  refine .of_release rfl (hright.setSlot_unclaimed hfree ⟨by simp, by simp [hreach', hhold'], by simp [hgap']⟩) (fun j hj => ?_)
    (fun c j hc => ((hleaves j).2 c).2 hc) rfl ?_ trivial (by simp [DutyTask.reaches]) hnew
  · exact ((State.leaves_setSlot hj _).trans (hleaves j)).trans (State.leaves_setSlot hj _)
  · rw [State.taskReady, passStep, State.slot_modifySlot, if_pos rfl]
    exact ⟨rfl, hstate', hgap'⟩

theorem failed_timersRight {x : ProgSlot} (h : x.timersRight) (why : FailReason) : (x.failed why).timersRight :=
  ⟨by simp [ProgSlot.failed, ProgSlot.resulted], by simp [ProgSlot.failed, ProgSlot.resulted], h.2.2⟩

theorem settleFailure_goesOn {why : FailReason} (hc : (s.slot i).continueOnFault = true) :
    settleFailure i why s = (s.setSlot i ((s.slot i).failed why), [.goOn i]) := by
  have hgo : settleFailure i why s = (((recordResult i (.failed why) s).modifySlot i fun x =>
      { x with faultsSeen := true, phase := .none }), [.goOn i]) := if_pos hc
  rw [hgo]
  simp only [recordResult, State.modifySlot, State.slot_setSlot_same, State.setSlot_setSlot]
  rfl

theorem settleFailure_runs (h : s.claimsRight) (why : FailReason) (hr : s.taskReady (.settle i why)) :
    s.TaskRuns (.settle i why) (settleFailure i why s).1 (settleFailure i why s).2 := by
  obtain ⟨hp, hfree⟩ := hr
  obtain ⟨hstate, hgap⟩ := (h.1 i).1 hp
  cases hc : (s.slot i).continueOnFault with
  | false =>
    rw [settleFailure_ends hc]
    have hright : (s.setSlot i { (s.slot i).failed why with state := .faulted }).claimsRight :=
      h.setSlot_unclaimed hfree ⟨by simp [ProgSlot.failed, ProgSlot.resulted], by simp [ProgSlot.failed, ProgSlot.resulted],
        by simp [ProgSlot.failed, ProgSlot.resulted, hgap]⟩
    refine .of_own rfl (hright.congr (raise_duty ..)) (fun j hj => (State.leaves_setSlot hj _).trans
      (State.leaves_congr (raise_duty ..))) (fun c j hh => .inl ?_) (.inl rfl)
    simpa [State.holdsAt, State.runFaulted] using hh
  | true =>
    rw [settleFailure_goesOn hc]
    refine .of_own rfl (h.setSlot_unclaimed hfree (failed_timersRight (h.1 i) why)) (fun j hj => State.leaves_setSlot hj _)
      (fun _ _ => .inl) (.inr ⟨_, rfl, rfl, ?_, by simp [DutyTask.reaches]⟩)
    rw [State.taskReady, State.slot_setSlot_same]
    exact ⟨rfl, hstate, hgap⟩

/-! ### Going on (R153, R154) -/

/-- The slot at the end of a pass, before the table of R154 says what comes next. -/
def ProgSlot.passEnded (x : ProgSlot) : ProgSlot :=
  { x with loopsLeft := if x.loops = 0 then x.loopsLeft else x.loopsLeft - 1, curStep := 0, phase := .none, reach := none,
           hold := none }

theorem endPass_done (h₁ : (s.slot i).loops ≠ 0) (h₂ : (s.slot i).passEnded.loopsLeft = 0) :
    endPass i s = raise .program (s.setSlot i { (s.slot i).passEnded with state := .done }) :=
  if_pos ⟨h₁, h₂⟩

theorem endPass_gap (h₁ : (s.slot i).loops = 0 ∨ (s.slot i).passEnded.loopsLeft ≠ 0) (h₂ : (s.slot i).intervalMin = 0) :
    endPass i s = s.setSlot i { (s.slot i).passEnded with gap := some 1 } :=
  (if_neg fun ⟨h, h'⟩ => h₁.elim h fun h₁ => h₁ h').trans (if_pos h₂)

theorem endPass_waits (h₁ : (s.slot i).loops = 0 ∨ (s.slot i).passEnded.loopsLeft ≠ 0) (h₂ : (s.slot i).intervalMin ≠ 0) :
    endPass i s = s.setSlot i { (s.slot i).passEnded with
      state := .waiting, waitMinute := some (((s.slot i).loopStart + (s.slot i).intervalMin) % Config.weekMinutes) } :=
  (if_neg fun ⟨h, h'⟩ => h₁.elim h fun h₁ => h₁ h').trans (if_neg h₂)

theorem ProgSlot.timersRight.of_still {x : ProgSlot} (hp : x.phase = .none) (hr : x.reach = none) (hh : x.hold = none)
    (hg : x.gap = none ∨ x.state = .running) : x.timersRight :=
  ⟨by simp [hp], by simp [hr, hh], fun h => hg.resolve_left h⟩

/-- What the end of a pass writes: its slot, and PROGRAM at the end of a run. -/
theorem endPass_writes (hx : (s.slot i).betweenSteps) :
    ∃ y : ProgSlot, y.timersRight ∧ (endPass i s).duty = (s.setSlot i y).duty := by
  obtain ⟨-, hstate, hgap⟩ := hx
  have hended : (s.slot i).passEnded.gap = none := hgap
  by_cases hdone : (s.slot i).loops ≠ 0 ∧ (s.slot i).passEnded.loopsLeft = 0
  · rw [endPass_done hdone.1 hdone.2]
    exact ⟨{ (s.slot i).passEnded with state := .done }, .of_still rfl rfl rfl (.inl hended), raise_duty ..⟩
  · have hgoes : (s.slot i).loops = 0 ∨ (s.slot i).passEnded.loopsLeft ≠ 0 := by
      by_cases h : (s.slot i).loops = 0
      · exact .inl h
      · exact .inr fun h' => hdone ⟨h, h'⟩
    by_cases hint : (s.slot i).intervalMin = 0
    · rw [endPass_gap hgoes hint]
      exact ⟨{ (s.slot i).passEnded with gap := some 1 }, .of_still rfl rfl rfl (.inr hstate), rfl⟩
    · rw [endPass_waits hgoes hint]
      exact ⟨{ (s.slot i).passEnded with
        state := .waiting, waitMinute := some (((s.slot i).loopStart + (s.slot i).intervalMin) % Config.weekMinutes) },
        .of_still rfl rfl rfl (.inl hended), rfl⟩

theorem goOnSlot_runs (h : s.claimsRight) (hx : (s.slot i).betweenSteps) :
    s.TaskRuns (.goOn i) (goOnSlot i s).1 (goOnSlot i s).2 := by
  have hfree := h.unclaimed hx.1
  unfold goOnSlot
  simp only
  split
  · refine .of_own rfl h (fun j _ => s.leaves_refl j) (fun _ _ => .inl) (.inr ⟨_, rfl, rfl, ⟨by omega, hx⟩, ?_⟩)
    simp [DutyTask.reaches]
  · obtain ⟨y, hy, hd⟩ := endPass_writes hx
    refine .of_own rfl ((h.setSlot_unclaimed hfree hy).congr hd) (fun j hj =>
      (State.leaves_setSlot hj y).trans (State.leaves_congr hd)) (fun c j hh => .inl ?_) (.inl rfl)
    have hclaim : (endPass i s).claim c = s.claim c := by rw [State.claim, hd]; rfl
    rwa [State.holdsAt, hclaim] at hh

/-- Each task that finds its slot ready runs as described. -/
theorem runTask_runs {x : DutyTask} (h : s.claimsRight) (hx : s.taskReady x) :
    s.TaskRuns x (runTask x s).1 (runTask x s).2 := by
  cases x with
  | begin_ i idx => exact beginStep_runs h hx
  | take c i => exact takeClaim_runs h hx
  | passOn c => exact passOnClaim_runs h c
  | pass i => exact passStep_runs h hx
  | fail i r => exact failStep_runs h r hx
  | settle i r => exact settleFailure_runs h r hx
  | goOn i => exact goOnSlot_runs h hx

/-! ### The chain -/

/-- The tasks of a chain: each ready, all but the first at rest, and no slot with two of them. -/
structure State.chain (s : State) (ts : List DutyTask) : Prop where
  right : s.claimsRight
  ready : ∀ x ∈ ts, s.taskReady x
  resting : ∀ x ∈ ts.tail, x.resting
  owners : (ts.filterMap DutyTask.owner).Nodup

theorem nodup_append_of_short {α : Type} {a b : List α} (ha : a.length ≤ 1) (hb : b.Nodup)
    (hab : ∀ x ∈ a, x ∉ b) : (a ++ b).Nodup := by
  match a, ha with
  | [], _ => exact hb
  | [x], _ => exact List.nodup_cons.2 ⟨hab x (by simp), hb⟩

/-- A chain of one task. -/
theorem State.chain_single {x : DutyTask} (h : s.claimsRight) (hx : s.taskReady x) : s.chain [x] :=
  ⟨h, by simpa using hx, by simp, by
    simpa using nodup_append_of_short (b := []) (List.length_filterMap_le DutyTask.owner [x]) List.nodup_nil (by simp)⟩

/-- A task at rest with a slot keeps it from every claim queue. -/
theorem State.not_waitsAt_of_resting {x : DutyTask} (h : s.claimsRight) (hx : s.taskReady x) (hr : x.resting)
    (ho : x.owner = some i) (c : Channel) : ¬s.waitsAt c i := by
  cases x with
  | settle k r => cases ho; exact (hx.2 c).1
  | goOn k => cases ho; exact ((h.unclaimed hx.1) c).1
  | passOn d => cases ho
  | begin_ k idx | take d k | pass k | fail k r => exact hr.elim

/-- A chain goes on as a chain. -/
theorem State.chain.next {x : DutyTask} {ts : List DutyTask} (h : s.chain (x :: ts)) :
    (runTask x s).1.chain ((runTask x s).2 ++ ts) := by
  have hown : ∀ y ∈ ts, ∀ j, y.owner = some j → x.owner ≠ some j := by
    intro y hy j hj hx
    have hn := h.owners
    rw [List.filterMap_cons_some hx] at hn
    exact (List.nodup_cons.1 hn).1 (List.mem_filterMap.2 ⟨y, hy, hj⟩)
  have hts : (ts.filterMap DutyTask.owner).Nodup := by
    cases hx : x.owner with
    | none => simpa [List.filterMap_cons_none hx] using h.owners
    | some k =>
      have hn := h.owners
      rw [List.filterMap_cons_some hx] at hn
      exact (List.nodup_cons.1 hn).2
  have hrun := runTask_runs h.right (h.ready x (by simp))
  refine ⟨hrun.right, fun y hy => ?_, fun y hy => ?_, ?_⟩
  · rcases List.mem_append.1 hy with hy | hy
    · exact hrun.ready y hy
    · exact State.leaves.ready (h.ready y (by simp [hy])) fun j hj => hrun.leaves j (hown y hy j hj)
  · have hrest : ∀ y ∈ ts, y.resting := fun y hy => h.resting y (by simpa using hy)
    cases hnew : (runTask x s).2 with
    | nil => rw [hnew] at hy; exact hrest y (List.mem_of_mem_tail hy)
    | cons z zs =>
      rw [hnew, List.cons_append, List.tail_cons] at hy
      rcases List.mem_append.1 hy with hy | hy
      · exact hrun.resting y (by rw [hnew]; exact hy)
      · exact hrest y hy
  · rw [List.filterMap_append]
    refine nodup_append_of_short hrun.single hts fun j hj hmem => ?_
    obtain ⟨y, hy, hyj⟩ := List.mem_filterMap.1 hj
    obtain ⟨z, hz, hzj⟩ := List.mem_filterMap.1 hmem
    rcases hrun.owned y hy j hyj with hx | ⟨c, -, hw⟩
    · exact hown z hz j hzj hx
    · exact State.not_waitsAt_of_resting h.right (h.ready z (by simp [hz])) (h.resting z (by simpa using hz)) hzj c hw

/-! ### Slots out of the chain's reach -/

/-- The chain of tasks does not come to slot `j`: none of them works on it, and where it waits for a claim, no task gives that
claim on, none works on its holder, and no step can begin there. -/
def State.outOfReach (s : State) (ts : List DutyTask) (j : SlotId) : Prop :=
  (∀ x ∈ ts, x.owner ≠ some j) ∧
  ∀ c, s.waitsAt c j → beginFailure c s ≠ none ∧ ∀ x ∈ ts, ¬x.reaches c ∧ ∀ i, x.owner = some i → ¬s.holdsAt c i

theorem runTask_outlets (x : DutyTask) (s : State) : (runTask x s).1.outlets = s.outlets := by
  obtain ⟨-, -, h, -⟩ := (keptByDuty_frame s).runTask x ⟨rfl, rfl, rfl, rfl, rfl, rfl, rfl, rfl, rfl, rfl, rfl, rfl, rfl, rfl⟩
  exact h

theorem State.outOfReach.next {x : DutyTask} {ts : List DutyTask} (h : s.chain (x :: ts)) (hj : s.outOfReach (x :: ts) j) :
    s.leaves (runTask x s).1 j ∧ (runTask x s).1.outOfReach ((runTask x s).2 ++ ts) j := by
  obtain ⟨hown, hwait⟩ := hj
  have hrun := runTask_runs h.right (h.ready x (by simp))
  have hleaves := hrun.leaves j (hown x (by simp))
  refine ⟨hleaves, fun y hy => ?_, fun c hc => ?_⟩
  · rcases List.mem_append.1 hy with hy | hy
    · intro hyj
      rcases hrun.owned y hy j hyj with hx | ⟨c, rfl, hw⟩
      · exact hown x (by simp) hx
      · exact ((hwait c hw).2 _ (by simp)).1 (.inl rfl)
    · exact hown y (by simp [hy])
  · obtain ⟨hbegin, htasks⟩ := hwait c ((hleaves.2 c).1 hc)
    obtain ⟨hxreach, hxholds⟩ := htasks x (by simp)
    have hheld : ∀ i, (runTask x s).1.holdsAt c i → s.holdsAt c i := fun i hi =>
      (hrun.holds c i hi).resolve_right fun e => hxreach (.inr ⟨i, e⟩)
    refine ⟨by rwa [beginFailure_congr (runTask_outlets x s)], fun y hy => ?_⟩
    rcases List.mem_append.1 hy with hy | hy
    · refine ⟨fun hreach => ?_, fun i hi hhold => ?_⟩
      · rcases hrun.reaching y hy c hreach with hr | ⟨i, hi, hh⟩ | hb
        · exact hxreach hr
        · exact hxholds i hi hh
        · exact hbegin hb
      · rcases hrun.owned y hy i hi with hx | ⟨d, rfl, hw⟩
        · exact hxholds i hx (hheld i hhold)
        · have hd : d = c := State.stepOn_unique (h.right.waitsOn hw) (h.right.holdsOn (hheld i hhold))
          exact hxreach (.inl (by rw [hd]))
    · obtain ⟨hyreach, hyholds⟩ := htasks y (by simp [hy])
      exact ⟨hyreach, fun i hi hhold => hyholds i hi (hheld i hhold)⟩

/-- A chain of any length keeps the claims right, and leaves the slots alone that it does not come to. -/
theorem runTasks_chain (n : Nat) {ts : List DutyTask} (h : s.chain ts) :
    (runTasks n ts s).claimsRight ∧ ∀ j, s.outOfReach ts j → s.leaves (runTasks n ts s) j := by
  induction n generalizing ts s with
  | zero => exact ⟨h.right, fun j _ => s.leaves_refl j⟩
  | succ n ih =>
    cases ts with
    | nil => exact ⟨h.right, fun j _ => s.leaves_refl j⟩
    | cons x ts =>
      obtain ⟨hright, hleaves⟩ := ih h.next
      refine ⟨hright, fun j hj => ?_⟩
      obtain ⟨hl, hout⟩ := hj.next h
      exact hl.trans (hleaves j hout)

/-- A chain of one task. -/
theorem runDuty_claimsRight {x : DutyTask} (h : s.claimsRight) (hx : s.taskReady x) : (runDuty [x] s).claimsRight :=
  (runTasks_chain _ (State.chain_single h hx)).1

/-! ### The steps on one outlet fail (R151, R152) -/

@[simp] theorem runTasks_nil (n : Nat) (s : State) : runTasks n [] s = s := by
  cases n <;> rfl

/-- Two lists of tasks in turn: the second has what the first leaves of the bound. -/
theorem runTasks_append (n : Nat) (ts us : List DutyTask) (s : State) :
    ∃ m, runTasks n (ts ++ us) s = runTasks m us (runTasks n ts s) := by
  induction n generalizing ts s with
  | zero => exact ⟨0, rfl⟩
  | succ n ih =>
    cases ts with
    | nil => exact ⟨n + 1, rfl⟩
    | cons x ts =>
      obtain ⟨m, hm⟩ := ih ((runTask x s).2 ++ ts) (runTask x s).1
      exact ⟨m, by rw [List.cons_append, runTasks_cons, runTasks_cons, ← hm, List.append_assoc]⟩

theorem runTasks_outlets (n : Nat) (ts : List DutyTask) (s : State) : (runTasks n ts s).outlets = s.outlets := by
  induction n generalizing ts s with
  | zero => rfl
  | succ n ih =>
    cases ts with
    | nil => rfl
    | cons x ts => exact (ih _ _).trans (runTask_outlets x s)

/-- Steps that wait for one claim fail in turn, where no step can begin: the claims stay right, and the steps on that outlet that
do not fail are left alone. -/
theorem runTasks_failing {why : FailReason} {l : List SlotId} (n : Nat) (h : s.claimsRight) (hc : beginFailure c s ≠ none)
    (hn : l.Nodup) (hl : ∀ i ∈ l, s.stepOn c i ∧ ¬s.holdsAt c i) :
    (runTasks n (l.map fun i => .fail i why) s).claimsRight ∧
    ∀ j ∉ l, s.stepOn c j → s.leaves (runTasks n (l.map fun i => .fail i why) s) j := by
  induction l generalizing n s with
  | nil =>
    rw [List.map_nil, runTasks_nil]
    exact ⟨h, fun j _ _ => s.leaves_refl j⟩
  | cons i l ih =>
    obtain ⟨hi, hn⟩ := List.nodup_cons.1 hn
    obtain ⟨hion, hifree⟩ := hl i (by simp)
    obtain ⟨m, hm⟩ := runTasks_append n [.fail i why] (l.map fun k => .fail k why) s
    obtain ⟨hright, hleaves⟩ := runTasks_chain n (State.chain_single h (x := .fail i why) hion.1)
    have hother : ∀ j, j ≠ i → s.stepOn c j → s.leaves (runTasks n [.fail i why] s) j := by
      refine fun j hj hon => hleaves j ⟨fun x hx => ?_, fun d hd => ?_⟩
      · rw [List.mem_singleton.1 hx]
        exact fun e => hj (Option.some.inj e).symm
      · obtain rfl : c = d := State.stepOn_unique hon (h.waitsOn hd)
        refine ⟨hc, fun x hx => ?_⟩
        rw [List.mem_singleton.1 hx]
        exact ⟨by simp [DutyTask.reaches], fun k hk => Option.some.inj hk ▸ hifree⟩
    have hstill : ∀ j, j ≠ i → s.stepOn c j → (runTasks n [.fail i why] s).stepOn c j := fun j hj hon => by
      rw [State.stepOn_iff, (hother j hj hon).1]
      exact hon
    obtain ⟨hright', hleaves'⟩ := ih m hright (by rwa [beginFailure_congr (runTasks_outlets ..)]) hn fun k hk => by
      have hki : k ≠ i := fun e => hi (e ▸ hk)
      obtain ⟨hkon, hkfree⟩ := hl k (by simp [hk])
      exact ⟨hstill k hki hkon, fun hh => hkfree (((hother k hki hkon).2 c).2 hh)⟩
    rw [List.map_cons, ← List.singleton_append, hm]
    refine ⟨hright', fun j hj hon => ?_⟩
    obtain ⟨hji, hjl⟩ := not_or.1 (List.mem_cons.not.1 hj)
    exact (hother j hji hon).trans (hleaves' j hjl (hstill j hji hon))

/-- The steps on an outlet on which none can begin all fail, and the claims stay right. -/
theorem failStepsOn_claimsRight (why : FailReason) (h : s.claimsRight) (hc : beginFailure c s ≠ none) :
    (failStepsOn c why s).claimsRight := by
  obtain ⟨hn, hwait, hhold⟩ := h.2 c
  have hwaiters : ∀ i ∈ (s.claim c).waiters.reverse, s.stepOn c i ∧ ¬s.holdsAt c i := fun i hi =>
    ⟨hwait i (List.mem_reverse.1 hi), h.not_holdsAt_of_waitsAt (List.mem_reverse.1 hi)⟩
  unfold failStepsOn stepsOn runDuty
  rw [List.map_append]
  obtain ⟨m, hm⟩ := runTasks_append (taskBound s) ((s.claim c).waiters.reverse.map fun i => .fail i why)
    ((((s.claim c).holder.map fun x => x.slot).toList).map fun i => .fail i why) s
  obtain ⟨hright, hleaves⟩ := runTasks_failing (why := why) (taskBound s) h hc (List.nodup_reverse.2 hn) hwaiters
  rw [hm]
  cases hh : (s.claim c).holder with
  | none =>
    simpa using hright
  | some x =>
    obtain ⟨hx, hon⟩ := hhold x hh
    refine (runTasks_chain m (State.chain_single hright ?_)).1
    rw [State.taskReady, (hleaves x.slot (by simpa using hx) hon).1]
    exact hon.1

end Sys2Proof.Machine
end

section
/-! What a command may do to the duty programs and to the frames that wait, apart from the rows of the Duty Program Unit: the steps on
an outlet fail where none can begin, frames that fit come and go, and nothing else. A property kept by these is kept by every
operation of the Drive Unit. -/

namespace Sys2Proof.Machine

variable {s t u : State}

/-! ### States with the same duty programs -/

/-- The duty programs are the same, and every waiting frame waited before or fits (R177). -/
def State.sameDuty (s t : State) : Prop :=
  t.duty = s.duty ∧ (∀ f ∈ t.link.queue, f ∈ s.link.queue ∨ f.wellFormed = true) ∧
  ∀ f ∈ t.link.tx, f ∈ s.link.tx ∨ f.wellFormed = true

theorem State.sameDuty.of_eq (hd : t.duty = s.duty) (hl : t.link = s.link) : s.sameDuty t :=
  ⟨hd, fun _ hf => .inl (hl ▸ hf), fun _ hf => .inl (hl ▸ hf)⟩

theorem makeReady_sameDuty {f : Frame} (hf : f.wellFormed = true) (s : State) : s.sameDuty (makeReady f s) := by
  refine ⟨rfl, fun g hg => .inl hg, fun g hg => ?_⟩
  rw [makeReady_tx] at hg
  rcases List.mem_append.1 hg with hg | hg
  · exact .inl hg
  · exact .inr (List.mem_singleton.1 hg ▸ hf)

theorem raise_sameDuty (k : NoticeKind) (s : State) : s.sameDuty (raise k s) := by
  rcases raise_cases k s with ⟨-, e⟩ | ⟨-, -, e⟩ | ⟨-, -, e⟩
  · rw [e]; exact .of_eq rfl rfl
  · rw [e]; exact ⟨rfl, fun _ => .inl, fun _ => .inl⟩
  · rw [e]
    exact makeReady_sameDuty (f := noticeFrame (s.link.notices ||| k.bit) s.link.mask k.bit) rfl
      { s with link := { s.link with notices := s.link.notices ||| k.bit } }

/-! ### The checks that fail a step at its beginning (R145) -/

theorem beginFailure_eq_none_iff {c : Channel} {o : Outlet} (ho : s.outlet c = some o) :
    beginFailure c s = none ↔ o.takesSteps := by
  cases hf : o.feederOf with
  | some x => simp [beginFailure, ho, Outlet.takesSteps, hf]
  | none =>
    cases hp : o.bars.prog <;> cases ha : o.bars.all <;> cases hs : o.state <;>
      simp [beginFailure, ho, Outlet.takesSteps, hf, hp, ha, hs]

/-- No step begins on an outlet that is HELD, FAULTED or barred. -/
theorem beginFailure_ne_none {c : Channel} {o : Outlet} (ho : s.outlet c = some o)
    (h : o.state = .held ∨ o.state = .faulted ∨ o.bars.prog = true ∨ o.bars.all = true) : beginFailure c s ≠ none := by
  rw [Ne, beginFailure_eq_none_iff ho]
  rintro ⟨-, hp, ha, hf, hh⟩
  rcases h with h | h | h | h
  · exact hh h
  · exact hf h
  · simp [hp] at h
  · simp [ha] at h

/-! ### The properties kept -/

/-- The property bears on the duty programs and the waiting frames alone, and is kept where the steps on an outlet fail on which none
can begin. -/
structure KeptByReports (P : State → Prop) : Prop where
  congr : ∀ {s t : State}, P s → s.sameDuty t → P t
  fails : ∀ {s : State} {c : Channel} (why : FailReason), beginFailure c s ≠ none → P s → P (failStepsOn c why s)

namespace KeptByReports

variable {P : State → Prop} (h : KeptByReports P)
include h

theorem same (hp : P s) (hd : t.duty = s.duty) (hl : t.link = s.link) : P t :=
  h.congr hp (.of_eq hd hl)

theorem raise (k : NoticeKind) (hp : P s) : P (Machine.raise k s) :=
  h.congr hp (raise_sameDuty k s)

theorem addEntry (d : MoveDir) (c : Channel) (hp : P s) : P (Machine.addEntry d c s) := by
  cases d <;> exact h.same hp rfl rfl

theorem removeEntry (c : Channel) (hp : P s) : P (Machine.removeEntry c s) :=
  h.same hp rfl rfl

theorem modifyOutlet (c : Channel) (f : Outlet → Outlet) (hp : P s) : P (s.modifyOutlet c f) :=
  h.same hp rfl rfl

theorem modifyPosition (c : Channel) (f : Position → Position) (hp : P s) : P (s.modifyPosition c f) :=
  h.same hp rfl rfl

/-! ### The operations of the Drive Unit -/

variable {arb : State → State} (ha : ∀ s, P s → P (arb s))
include ha

theorem joinQueue (d : MoveDir) (c : Channel) (hp : P s) : P (Machine.joinQueue arb d c s) := by
  unfold Machine.joinQueue
  split
  · exact hp
  · exact ha _ (h.addEntry d c hp)

theorem applyNeed (c : Channel) (hp : P s) : P (Machine.applyNeed arb c s) := by
  unfold Machine.applyNeed
  split
  · exact hp
  · exact h.joinQueue ha _ c hp
  · exact h.removeEntry c hp
  · split
    · exact hp
    · exact h.joinQueue ha _ c (h.removeEntry c hp)

theorem reverseMove (d : MoveDir) (c : Channel) (hp : P s) : P (Machine.reverseMove arb d c s) :=
  h.joinQueue ha d c (h.modifyPosition c _ (ha _ (h.modifyPosition c _ hp)))

theorem homingRequest (c : Channel) (hp : P s) : P (Machine.homingRequest arb c s) := by
  have h₁ := h.modifyPosition c (fun p => { p with homeReq := true }) hp
  have h₂ := h.modifyPosition c estimateLeg h₁
  unfold Machine.homingRequest
  simp only
  split
  · split
    · exact h.joinQueue ha _ c h₁
    · exact h₁
    · exact h.joinQueue ha _ c (h.removeEntry c h₁)
  · split
    · exact h₁
    · split
      · exact h.modifyPosition c _ h₂
      · exact h.reverseMove ha _ c h₂

/-- A report either takes the outlet to HOMING, or takes it to FAULTED and fails its steps there (R121, R123, R152). -/
theorem faultReport (c : Channel) (k : FaultKind) (hp : P s) : P (Machine.faultReport arb c k s) := by
  have hreport (x : Outlet) : P (Machine.raise .travel ((s.modifyPosition c fun p => { p with known := false }).setOutlet c
      (some x))) := h.raise _ (h.same hp rfl rfl)
  have hfails (x : Outlet) (hx : x.state = .faulted) : P (failStepsOn c .travel (Machine.raise .travel
      ((s.modifyPosition c fun p => { p with known := false }).setOutlet c (some x)))) := by
    refine h.fails _ (beginFailure_ne_none (o := x) ?_ (.inr (.inl hx))) (hreport x)
    rw [raise_outlet, State.outlet_setOutlet, if_pos rfl]
  unfold Machine.faultReport
  split
  · exact hp
  · simp only [modifyOutlet_raise_setOutlet]
    split
    · split
      · exact h.homingRequest ha c (hreport _)
      · exact hfails _ rfl
    · split
      · exact h.homingRequest ha c (hreport _)
      · exact hfails _ rfl
    · split
      · exact h.homingRequest ha c (hreport _)
      · exact hfails _ rfl
    · exact hfails _ rfl
    · exact hfails _ rfl
    · exact hp
    · exact hp

theorem faultStop (held : Bool) (c : Channel) (k : FaultKind) (hp : P s) : P (Machine.faultStop arb held c k s) := by
  have h₁ := h.removeEntry c (h.modifyPosition c (faultPosition (s.olimActive c) (s.climActive c)) hp)
  refine h.faultReport ha c k ?_
  split
  · exact ha _ h₁
  · exact h₁

theorem completeMove (m : Move) (est : Nat) (known : Bool) (c : Channel) (hp : P s) :
    P (Machine.completeMove arb m est known c s) := by
  have h₁ := ha _ (h.modifyPosition c (completedPosition m est known) hp)
  have h₂ : P (completed arb m est known c s) := by
    unfold completed
    split
    · exact h.same h₁ rfl rfl
    · exact h₁
  cases hn : moveNeed c (completed arb m est known c s) with
  | none => rwa [completeMove_rests hn]
  | some d =>
    by_cases hd : d = m.dir
    · subst hd
      rw [completeMove_goesOn hn]
      exact h.joinQueue ha _ c h₂
    · rw [completeMove_reverses hn hd]
      exact h.joinQueue ha _ c (h.modifyPosition c _ h₂)

theorem startMove (d : MoveDir) (c : Channel) (hp : P s) : P (Machine.startMove arb d c s) := by
  unfold Machine.startMove
  simp only
  split
  · exact h.faultStop ha _ c _ hp
  · split
    · exact h.completeMove ha _ _ _ c hp
    · exact h.modifyPosition c _ hp

omit ha in
theorem arbiter (n : Nat) (s : State) (hp : P s) : P (Machine.arbiter n s) := by
  induction n generalizing s with
  | zero => exact hp
  | succ n ih =>
    unfold Machine.arbiter
    split
    · split
      · exact hp
      · exact ih _ (h.startMove ih _ _ (h.removeEntry _ hp))
    · exact hp

omit ha in
theorem runArbiter (s : State) (hp : P s) : P (Machine.runArbiter s) :=
  h.arbiter _ s hp

/-! ### The events of the Drive Unit -/

omit ha

theorem giveTarget (c : Channel) (t : Nat) (hp : P s) : P (Machine.giveTarget c t s) := by
  have h₁ := h.modifyPosition c (fun p => { p with target := some t }) hp
  have h₂ := h.modifyPosition c estimateLeg h₁
  unfold Machine.giveTarget
  simp only
  split
  · split
    · exact h₁
    · unfold retarget
      simp only
      split
      · exact h.runArbiter _ (h.modifyPosition c _ h₂)
      · split
        · exact h.modifyPosition c _ h₂
        · exact h.reverseMove h.runArbiter _ c h₂
  · split
    · exact h₁
    · exact h.applyNeed h.runArbiter c h₁

theorem requestHoming (c : Channel) (hp : P s) : P (Machine.requestHoming c s) :=
  h.homingRequest h.runArbiter c hp

theorem stopChannel (c : Channel) (hp : P s) : P (Machine.stopChannel c s) := by
  have h₁ := h.removeEntry c (h.modifyPosition c
    (fun p => { estimateLeg p with move := none, pause := none, homeReq := false, target := none }) hp)
  unfold Machine.stopChannel
  simp only
  split
  · exact h.runArbiter _ h₁
  · exact h₁

theorem moveTimerExpiry (c : Channel) (hp : P s) : P (Machine.moveTimerExpiry c s) := by
  unfold Machine.moveTimerExpiry
  split
  · exact hp
  · split
    · unfold moveTimeout
      split
      · exact h.faultStop h.runArbiter _ c _ hp
      · exact h.faultStop h.runArbiter _ c _ hp
      · exact h.faultStop h.runArbiter _ c _ hp
      · split
        · exact h.faultStop h.runArbiter _ c _ hp
        · split
          · exact h.faultStop h.runArbiter _ c _ hp
          · exact h.completeMove h.runArbiter _ _ _ c hp
    · exact hp

theorem checkTimerExpiry (c : Channel) (hp : P s) : P (Machine.checkTimerExpiry c s) := by
  unfold Machine.checkTimerExpiry
  split
  · exact hp
  · split
    · split
      · exact h.faultStop h.runArbiter _ c _ hp
      · exact h.modifyPosition c _ hp
    · exact hp

theorem pauseTimerExpiry (c : Channel) (hp : P s) : P (Machine.pauseTimerExpiry c s) := by
  unfold Machine.pauseTimerExpiry
  split
  · simp only
    split
    · exact h.runArbiter _ (h.modifyPosition c _ hp)
    · exact h.modifyPosition c _ hp
  · exact hp

theorem limitEvent (c : Channel) (line : LimitLine) (active : Bool) (hp : P s) : P (Machine.limitEvent c line active s) := by
  have h₁ : P (setLimit c line active s) := by cases line <;> exact h.same hp rfl rfl
  unfold Machine.limitEvent
  simp only
  split
  · exact hp
  · split
    · exact h₁
    · split
      · unfold limitDuringMove
        split
        · exact h.faultStop h.runArbiter _ c _ h₁
        · split
          · exact h.completeMove h.runArbiter _ _ _ c h₁
          · exact h.completeMove h.runArbiter _ _ _ c h₁
          · exact h.modifyPosition c _ h₁
          all_goals exact h₁
      · unfold limitAtStill
        split
        · exact h₁
        · split
          · exact h.faultStop h.runArbiter _ c _ h₁
          · exact h.applyNeed h.runArbiter c h₁

/-! ### The requests of the Outlet Table and of the Demand Intake -/

theorem outletSet (p : List Byte) (s : State) (hp : P s) : P (Machine.outletSet p s).2 := by
  have hcreate (c : Channel) (fx : FixedPart) (prof : Profile) : P (createOutlet c fx prof s) := by
    unfold createOutlet
    split
    · exact h.same hp rfl rfl
    · exact h.requestHoming c (h.same hp rfl rfl)
  have hwrite (c : Channel) (rawF : FixedPart) (rawP : Profile) : P (writeOutlet c rawF rawP s).2 := by
    unfold writeOutlet
    simp only
    split
    · exact hcreate ..
    · split
      · exact hp
      · exact h.same hp rfl rfl
  refine atOutlet_keeps hp fun c => ?_
  split
  · simp only
    split
    · exact hwrite ..
    · exact hp
  · exact hp

theorem outletDrop (p : List Byte) (s : State) (hp : P s) : P (Machine.outletDrop p s).2 := by
  refine atOutlet_keeps hp fun c => ?_
  split
  · exact hp
  · exact h.stopChannel c (h.same hp rfl rfl)

theorem profileSet (p : List Byte) (s : State) (hp : P s) : P (Machine.profileSet p s).2 := by
  refine atOutlet_keeps hp fun c => ?_
  split
  · split
    · exact hp
    · simp only
      split
      · exact hp
      · split
        · exact hp
        · exact h.same hp rfl rfl
  · exact hp

/-- What a change of BAR_ALL does first leaves the outlet's new bars (R18, R19, R21). -/
theorem barsChanged (c : Channel) (old : Bars) (o : Outlet) (hp : P s) :
    P (if old.all = false ∧ o.bars.all = true then lockOutlet c (s.setOutlet c (some o))
      else if old.all = true ∧ o.bars.all = false then unlockOutlet c (s.setOutlet c (some o))
      else s.setOutlet c (some o)) ∧
    ((if old.all = false ∧ o.bars.all = true then lockOutlet c (s.setOutlet c (some o))
      else if old.all = true ∧ o.bars.all = false then unlockOutlet c (s.setOutlet c (some o))
      else s.setOutlet c (some o)).outlet c).map Outlet.bars = some o.bars := by
  have hset (x : Outlet) : P (s.setOutlet c (some x)) := h.same hp rfl rfl
  have hbars (x : Outlet) : ((s.setOutlet c (some x)).outlet c).map Outlet.bars = some x.bars := by
    rw [State.outlet_setOutlet_same, Option.map_some]
  split
  · cases he : o.state.eligible with
    | false =>
      rw [lockOutlet_ineligible he]
      exact ⟨hset o, hbars o⟩
    | true =>
      rw [lockOutlet_eligible he]
      refine ⟨h.giveTarget c 0 (hset _), ?_⟩
      obtain ⟨-, -, -, -, -, -, -, -, -, -, -, -, -, -, hout⟩ := (keptByDrive_frame _).giveTarget c (t := 0)
        (Nat.zero_le _) (driveFrame_refl (s.setOutlet c (some { o with
          state := .locked, grant := 0, effDemand := 0, assumedDraw := 0, warmTimer := none })))
      have hout := congrArg (Option.map fun x => x.2.2.2.1) (hout c)
      rw [Option.map_map, Option.map_map] at hout
      exact hout.trans (hbars _)
  · split
    · rw [unlockOutlet_setOutlet]
      refine ⟨hset _, (hbars _).trans ?_⟩
      split <;> rfl
    · exact ⟨hset o, hbars o⟩

/-- The steps on an outlet fail at a bar newly set, which stands in its record (R151). -/
theorem barSet (p : List Byte) (s : State) (hp : P s) : P (Machine.barSet p s).2 := by
  refine atOutlet_keeps hp fun c => ?_
  split
  · exact hp
  · split
    · exact hp
    · next o _ =>
      obtain ⟨hall, hout⟩ := h.barsChanged c o.bars { o with bars := {
        host := (barAction (readByte p 2) o.bars.host).getD o.bars.host,
        prog := (barAction (readByte p 3) o.bars.prog).getD o.bars.prog,
        all := (barAction (readByte p 4) o.bars.all).getD o.bars.all } } hp
      obtain ⟨x, hx, hbars⟩ := Option.map_eq_some_iff.1 hout
      unfold applyBars
      simp only
      split
      · next hset =>
        refine h.fails _ (beginFailure_ne_none hx (.inr (.inr ?_))) hall
        rw [hbars]
        exact hset.symm.imp And.right And.right
      · exact hall

theorem rehome (p : List Byte) (s : State) (hp : P s) : P (Machine.rehome p s).2 := by
  refine atOutlet_keeps hp fun c => ?_
  split
  · exact h.requestHoming c (h.same hp rfl rfl)
  · exact hp

theorem faultClear (p : List Byte) (s : State) (hp : P s) : P (Machine.faultClear p s).2 := by
  refine atOutlet_keeps hp fun c => ?_
  split
  · exact hp
  · split
    · exact h.requestHoming c (h.same hp rfl rfl)
    · exact hp

theorem demand (p : List Byte) (s : State) (hp : P s) : P (Machine.demand p s).2 := by
  obtain ⟨ds, hds⟩ := demandItems_writes_demands (p.length / 4) p s
  rw [Machine.demand, hds]
  exact h.same hp rfl rfl

/-! ### The requests of the Supply Pools -/

theorem setPool (p : Pool) (r : PoolRecord) (hp : P s) : P (s.setPool p r) :=
  h.same hp (State.setPool_duty ..) (State.setPool_link ..)

theorem writeLog (x : LogEntry) (hp : P s) : P (Machine.writeLog x s) := by
  have hlost : P { s with log := { entries := s.log.entries.drop 1, lost := true } } := h.same hp rfl rfl
  have hfull : P (if Config.logLimit ≤ s.log.entries.length then
      Machine.raise .logLoss { s with log := { entries := s.log.entries.drop 1, lost := true } } else s) := by
    split
    · exact h.raise _ hlost
    · exact hp
  unfold Machine.writeLog
  generalize (if Config.logLimit ≤ s.log.entries.length then
      Machine.raise .logLoss { s with log := { entries := s.log.entries.drop 1, lost := true } } else s) = v at hfull ⊢
  exact h.raise _ (h.same hfull rfl rfl)

theorem feederStage (p : Pool) (ps : List Part) (a : Nat) (hp : P s) : P (Machine.feederStage p ps a s) := by
  unfold Machine.feederStage
  split
  · exact hp
  · split
    · exact hp
    · exact h.modifyOutlet _ _ hp

theorem runRound (p : Pool) (hp : P s) : P (Machine.runRound p s) := by
  have hbegun : P (roundBegun p s) := by
    refine h.setPool p _ ?_
    unfold swapStage
    simp only
    split
    · exact h.raise _ (h.setPool p _ (h.setPool p _ hp))
    · exact h.setPool p _ hp
  have hgranted : P (roundRecords p s) :=
    h.setPool p _ (List.foldlRecOn (motive := P) _ _ hbegun fun u hu q _ => h.same hu rfl rfl)
  have htargets : P ((roundParts p s).foldl targetOutlet (roundRecords p s)) := by
    refine List.foldlRecOn (motive := P) _ _ hgranted fun u hu q _ => ?_
    unfold targetOutlet
    split
    · split
      · exact h.giveTarget _ _ hu
      · exact hu
    · exact hu
  rw [runRound_eq]
  refine h.feederStage p _ _ (List.foldlRecOn (motive := P) _ _ htargets fun u hu q _ => ?_)
  rw [takeResult_eq_writeLogs]
  exact List.foldlRecOn (motive := P) _ _ (h.same hu rfl rfl) fun v hv x _ => h.writeLog x hv

theorem disablePool (p : Pool) (hp : P s) : P (Machine.disablePool p s) := by
  have hall := List.foldlRecOn (motive := P) (indices 48) (fun s c =>
    s.modifyOutlet c fun o => if o.fixed.pool = p then disableOutlet o else o) hp fun u hu c _ => h.modifyOutlet c _ hu
  have hout : P (disabledOutlets p s) := by
    unfold disabledOutlets
    simp only
    split
    · exact hall
    · split
      · exact h.modifyOutlet _ _ hall
      · exact hall
  have hrecords : P (disableRecords p s) := by
    rw [disableRecords_eq]
    exact h.setPool p _ hout
  refine List.foldlRecOn (motive := P) _ _ hrecords fun u hu c _ => ?_
  split
  · exact h.giveTarget c 0 hu
  · exact hu

theorem applyEnable (p : Pool) (was is_ : Bool) (hp : P s) : P (Machine.applyEnable p was is_ s) := by
  unfold Machine.applyEnable
  split
  · exact h.runRound p hp
  · exact h.disablePool p hp
  · exact hp
  · exact hp

theorem designate (hw : HwPool) (old new : Option Channel) (hp : P s) : P (Machine.designate hw old new s) := by
  unfold Machine.designate
  split
  · exact hp
  · cases old <;> cases new <;> exact h.same hp rfl rfl

theorem poolSet (p : List Byte) (s : State) (hp : P s) : P (Machine.poolSet p s).2 := by
  unfold Machine.poolSet
  split
  · unfold poolSetSteam
    simp only
    split
    · exact h.applyEnable _ _ _ (h.same hp rfl rfl)
    · exact hp
  · unfold poolSetHw
    split
    · exact hp
    · exact h.applyEnable _ _ _ (h.designate _ _ _
        (h.same (h.setPool _ _ hp) (State.setHwPart_duty ..) (State.setHwPart_link ..)))
  · exact hp
  · exact hp

theorem profileSwap (p : List Byte) (s : State) (hp : P s) : P (Machine.profileSwap p s).2 := by
  unfold Machine.profileSwap
  split
  · exact hp
  · simp only
    split
    · exact hp
    · exact h.setPool _ _ hp

theorem rebalance (p : List Byte) (s : State) (hp : P s) : P (Machine.rebalance p s).2 := by
  unfold Machine.rebalance
  split
  · exact hp
  · split
    · exact h.runRound _ hp
    · exact hp

theorem roundTimerExpiry (p : Pool) (hp : P s) : P (Machine.roundTimerExpiry p s) := by
  unfold Machine.roundTimerExpiry
  split
  · exact h.runRound p hp
  · exact hp

theorem capacityStalenessExpiry (hp : P s) : P (Machine.capacityStalenessExpiry s) := by
  unfold Machine.capacityStalenessExpiry
  simp only
  split
  · exact h.raise _ (h.same hp rfl rfl)
  · exact hp

theorem stalenessTimerExpiry (c : Channel) (hp : P s) : P (Machine.stalenessTimerExpiry c s) := by
  unfold Machine.stalenessTimerExpiry
  split
  · exact h.raise _ (h.same hp rfl rfl)
  all_goals exact hp

/-! ### The translator, the clock and the link -/

theorem rangeSet (p : List Byte) (s : State) (hp : P s) : P (Machine.rangeSet p s).2 := by
  unfold Machine.rangeSet writeRange
  split
  · split
    · split
      · exact hp
      · exact h.same hp rfl rfl
    · exact hp
  · exact hp

theorem mapSet (p : List Byte) (s : State) (hp : P s) : P (Machine.mapSet p s).2 := by
  unfold Machine.mapSet
  simp only
  split
  · exact hp
  · split
    · exact hp
    · exact h.same hp rfl rfl

theorem clockSet (p : List Byte) (s : State) (hp : P s) : P (Machine.clockSet p s).2 := by
  unfold Machine.clockSet
  split
  · exact hp
  · exact h.same hp rfl rfl

theorem noticeMask (p : List Byte) (s : State) (hp : P s) : P (Machine.noticeMask p s).2 := by
  have h₁ : P { s with link := { s.link with mask := p.getD 0 0 } } := h.congr hp ⟨rfl, fun _ => .inl, fun _ => .inl⟩
  unfold Machine.noticeMask
  simp only
  split
  · exact h₁
  · exact h.congr h₁ (makeReady_sameDuty rfl _)

/-! ### The hand-off of a bank (R129 to R133) -/

theorem bhoAssertion (b : BankId) (hp : P s) : P (Machine.bhoAssertion b s) := by
  have h₁ : P (setBho b true s) := h.same hp rfl rfl
  have hhold (c : Channel) {u : State} (hu : P u) : P (holdOutlet u c) := by
    cases ho : u.outlet c with
    | none => rwa [holdOutlet_absent ho]
    | some o =>
      by_cases hs : o.state = .held ∨ o.state = .faulted
      · rwa [holdOutlet_silent ho hs]
      · rw [holdOutlet_holds ho hs]
        refine h.fails _ (beginFailure_ne_none (o := heldRecord o) ?_ ?_) (h.same hu rfl rfl)
        · rw [State.outlet_setOutlet, if_pos rfl]
        · exact (heldRecord_state o).imp id .inl
  have hheld : P (bankHeld b (setBho b true s)) :=
    List.foldlRecOn (motive := P) _ _ (List.foldlRecOn (motive := P) _ _ h₁ fun u hu c _ =>
      h.modifyPosition c _ (h.stopChannel c hu)) fun u hu c _ => hhold c hu
  unfold Machine.bhoAssertion
  simp only
  split
  · exact hp
  · split
    · exact h₁
    · exact h.raise _ (h.same hheld rfl rfl)

theorem bhoRelease (b : BankId) (hp : P s) : P (Machine.bhoRelease b s) := by
  have h₁ : P (setBho b false s) := h.same hp rfl rfl
  unfold Machine.bhoRelease
  simp only
  split
  · split
    · exact h₁
    · refine h.raise _ (List.foldlRecOn (motive := P) _ _ (h.same h₁ rfl rfl) fun u hu c _ => ?_)
      unfold rehomeHeld
      split
      · exact hu
      · split
        · exact h.requestHoming c (h.same hu rfl rfl)
        · exact hu
  · exact hp

end KeptByReports

end Sys2Proof.Machine
end

section
/-! Every answer fits a reply frame (R177, R181): the reply carries KIND, TAG and STATUS besides the data, so data of at most 117 bytes
make a frame whose LEN is at most 120. -/

namespace Sys2Proof.Machine

/-- The reply that carries the answer has a LEN of at most 120 (R177). -/
def Answer.fits (a : Answer) : Prop :=
  a.data.length ≤ 117

theorem Answer.fits.wellFormed {a : Answer} (h : a.fits) (f : Frame) : (replyTo f a).wellFormed = true :=
  decide_eq_true (Nat.succ_le_succ h)

@[simp] theorem refuse_fits (st : Status) : (Answer.refuse st).fits := Nat.zero_le _

@[simp] theorem empty_fits (st : Status) : (Answer.mk st []).fits := Nat.zero_le _

@[simp] theorem byte_fits (st : Status) (b : Byte) : (Answer.mk st [b]).fits := Nat.le_of_ble_eq_true rfl

@[simp] theorem refuseStep_fits (st : Status) (idx : Nat) : (refuseStep st idx).fits := byte_fits ..

variable {p : List Byte} {s : State}

theorem atOutlet_fits {f : Channel → Answer × State} (hf : ∀ c, (f c).1.fits) : (atOutlet p s f).1.fits := by
  unfold atOutlet
  split
  · exact hf _
  · exact refuse_fits _

/-! ### The Outlet Table and the Demand Intake -/

theorem outletSet_fits : (outletSet p s).1.fits := by
  refine atOutlet_fits fun c => ?_
  split
  · simp only
    split
    · unfold writeOutlet
      simp only
      split
      · exact byte_fits ..
      · split
        · exact refuse_fits _
        · exact byte_fits ..
    · exact refuse_fits _
  · exact refuse_fits _

theorem outletDrop_fits : (outletDrop p s).1.fits := by
  refine atOutlet_fits fun c => ?_
  split
  · exact refuse_fits _
  · exact byte_fits ..

theorem profileSet_fits : (profileSet p s).1.fits := by
  refine atOutlet_fits fun c => ?_
  split
  · split
    · exact refuse_fits _
    · simp only
      split
      · exact refuse_fits _
      · split
        · exact refuse_fits _
        · exact byte_fits ..
  · exact refuse_fits _

theorem barSet_fits : (barSet p s).1.fits := by
  refine atOutlet_fits fun c => ?_
  split
  · exact refuse_fits _
  · split
    · exact refuse_fits _
    · exact byte_fits ..

theorem rehome_fits : (rehome p s).1.fits := by
  refine atOutlet_fits fun c => ?_
  split
  · exact byte_fits ..
  · exact refuse_fits _

theorem faultClear_fits : (faultClear p s).1.fits := by
  refine atOutlet_fits fun c => ?_
  split
  · exact refuse_fits _
  · split
    · exact byte_fits ..
    · exact refuse_fits _

theorem readOutlet_fits : (readOutlet p s).1.fits :=
  atOutlet_fits fun c => (outletBytes_length c s).trans_le (by decide)

/-- One status byte for each item, and a DEMAND has at most 16 (R72). -/
theorem demand_fits (h : fits .demand p = true) : (demand p s).1.fits := by
  simp only [fits, Bool.and_eq_true, decide_eq_true_eq] at h
  exact (demandItems_length ..).trans_le (by omega)

/-! ### The Supply Pools and the log -/

theorem poolSet_fits : (poolSet p s).1.fits := by
  unfold poolSet
  split
  · unfold poolSetSteam
    simp only
    split
    · exact empty_fits _
    · exact refuse_fits _
  · unfold poolSetHw
    split
    · exact refuse_fits _
    · exact empty_fits _
  · exact refuse_fits _
  · exact refuse_fits _

theorem profileSwap_fits : (profileSwap p s).1.fits := by
  unfold profileSwap
  split
  · exact refuse_fits _
  · simp only
    split
    · exact refuse_fits _
    · exact empty_fits _

theorem rebalance_fits : (rebalance p s).1.fits := by
  unfold rebalance
  split
  · exact refuse_fits _
  · split
    · exact Nat.le_of_ble_eq_true rfl
    · exact refuse_fits _

theorem readPool_fits : (readPool p s).1.fits := by
  unfold readPool
  split
  · exact refuse_fits _
  · refine (poolBytes_length ..).trans_le ?_
    split <;> decide

theorem logEntryBytes_length (x : LogEntry) : (logEntryBytes x).length = 11 := rfl

/-- At most 8 entries of 11 bytes (R92). -/
theorem readLog_fits : (readLog p s).1.fits := by
  have hdata : (readLog p s).1.data.length = 3 + 11 * (s.log.entries.take Config.logReadLimit).length := by
    simp only [readLog, List.length_append, length_flatMap_records logEntryBytes_length]
    rfl
  have htaken : (s.log.entries.take Config.logReadLimit).length ≤ 8 := List.length_take_le ..
  rw [Answer.fits, hdata]
  omega

/-! ### The translator, the scanner and the link -/

theorem rangeSet_fits : (rangeSet p s).1.fits := by
  unfold rangeSet writeRange
  split
  · split
    · split
      · exact byte_fits ..
      · exact empty_fits _
    · exact refuse_fits _
  · exact refuse_fits _

theorem mapSet_fits : (mapSet p s).1.fits := by
  unfold mapSet
  simp only
  split
  · exact byte_fits ..
  · split
    · exact byte_fits ..
    · have hentry (e : MapEntry) : (entryBytes e).length = 2 := rfl
      have htaken (m : Table MapEntry 128) (n : Nat) : ((m.toList.drop n).take 16).length ≤ 16 := List.length_take_le ..
      refine (length_flatMap_records hentry _).trans_le ((Nat.mul_le_mul_left 2 (htaken ..)).trans (by decide))

theorem readSensors_fits : (readSensors p s).1.fits := by
  unfold readSensors
  simp only
  split
  · exact refuse_fits _
  · next h =>
    refine (sensorsData_length (s := s) ?_).trans_le ?_ <;> omega

theorem clockSet_fits : (clockSet p s).1.fits := by
  unfold clockSet
  split
  · exact refuse_fits _
  · exact empty_fits _

/-! ### The Duty Program Unit -/

theorem checkClasses_fits {k : Nat} {xs : List CarriedStep} {a : Answer} (h : checkClasses k xs = some a) : a.fits := by
  induction xs generalizing k with
  | nil => cases h
  | cons x xs ih =>
    unfold checkClasses at h
    split at h
    · cases h; exact refuseStep_fits ..
    · exact ih h

theorem resolveSteps_fits {tr : Translator} {k : Nat} {xs : List CarriedStep} {a : Answer}
    (h : resolveSteps tr k xs = .error a) : a.fits := by
  induction xs generalizing k with
  | nil => cases h
  | cons x xs ih =>
    unfold resolveSteps at h
    split at h
    · cases h; exact refuseStep_fits ..
    · split at h
      · next h' => cases h; exact ih h'
      · cases h

theorem carriedSteps_fits {tr : Translator} {xs : List CarriedStep} {a : Answer} (h : carriedSteps tr xs = .error a) :
    a.fits := by
  unfold carriedSteps at h
  split at h
  · next h' => cases h; exact checkClasses_fits h'
  · exact resolveSteps_fits h

theorem progLoadFirst_fits : (progLoadFirst p s).1.fits := by
  unfold progLoadFirst
  split
  · exact refuseStep_fits ..
  · split
    · exact refuseStep_fits ..
    · split
      · exact refuseStep_fits ..
      · split
        · split
          · unfold loadFirst
            split
            · next h => exact carriedSteps_fits h
            · split
              · exact refuseStep_fits ..
              · exact empty_fits _
          · exact refuseStep_fits ..
        · exact refuseStep_fits ..

theorem progLoadNext_fits : (progLoadNext p s).1.fits := by
  unfold progLoadNext
  split
  · exact refuseStep_fits ..
  · split
    · exact refuseStep_fits ..
    · split
      · next h => exact carriedSteps_fits h
      · split
        · exact refuseStep_fits ..
        · split
          · exact refuseStep_fits ..
          · exact empty_fits _

theorem progStart_fits : (progStart p s).1.fits := by
  unfold progStart
  split
  · exact refuse_fits _
  · split
    · exact refuse_fits _
    · split
      · exact refuse_fits _
      · exact empty_fits _

theorem progStop_fits : (progStop p s).1.fits := by
  unfold progStop
  split
  · exact refuse_fits _
  · split
    · exact empty_fits _
    · exact refuse_fits _

end Sys2Proof.Machine
end

section
/-! Every command, and so every step, keeps a property of the duty programs and of the waiting frames that the rows of the Duty
Program Unit, the ticks and the resets keep, and that what else an event can do to them keeps (`KeptByReports`). -/

namespace Sys2Proof.Machine

variable {s t : State} {i : SlotId} {c : Channel}

/-! ### Frames that come and go (R178 to R182) -/

theorem State.sameDuty_dequeue {f : Frame} {rest : List Frame} (hq : s.link.queue = f :: rest) : s.sameDuty (s.dequeue rest) :=
  ⟨rfl, fun _ hg => .inl (hq ▸ List.mem_cons_of_mem _ hg), fun _ hg => .inl hg⟩

theorem State.sameDuty_answered (f : Frame) {a : Answer} (ha : a.fits) (s : State) : s.sameDuty (s.answered f a) :=
  makeReady_sameDuty (ha.wellFormed f) s

/-- A good frame has a LEN of at most 120 (R178). -/
theorem parseFrame_wellFormed {bs rest : List Byte} {f : Frame} (h : parseFrame bs = .good f rest) : f.wellFormed = true := by
  unfold parseFrame at h
  split at h
  · cases h
  · next len tail =>
    simp only at h
    split at h
    · cases h
    · next hn =>
      split at h
      · cases h
      · split at h
        · cases h
          refine decide_eq_true ?_
          simp only [frameOf, List.length_drop, List.length_take]
          omega
        · cases h

theorem scan_wellFormed (n : Nat) (bs : List Byte) : ∀ f ∈ (scan n bs).frames, f.wellFormed = true := by
  induction n generalizing bs with
  | zero => simp [scan]
  | succ n ih =>
    cases bs with
    | nil => simp [scan]
    | cons b bs =>
      unfold scan
      split
      · split
        · simp
        · exact ih bs
        · next f rest h =>
          intro g hg
          rcases List.mem_cons.1 hg with rfl | hg
          · exact parseFrame_wellFormed h
          · exact ih rest g hg
      · exact ih bs

theorem handFrame_sameDuty {f : Frame} (hf : f.wellFormed = true) (s : State) : s.sameDuty (handFrame f s) := by
  unfold handFrame
  split
  · refine ⟨rfl, fun g hg => ?_, fun g hg => .inl hg⟩
    rcases List.mem_append.1 hg with hg | hg
    · exact .inl hg
    · exact .inr (List.mem_singleton.1 hg ▸ hf)
  · split
    · exact makeReady_sameDuty ((refuse_fits .queueFull).wellFormed f) s
    · exact .of_eq rfl rfl

namespace KeptByReports

variable {P : State → Prop} (h : KeptByReports P)
include h

theorem receive (bs : List Byte) (hp : P s) : P (Machine.receive bs s) :=
  List.foldlRecOn (motive := P) _ _ (h.congr hp ⟨rfl, fun _ => .inl, fun _ => .inl⟩) fun _ hu f hf =>
    h.congr hu (handFrame_sameDuty (scan_wellFormed _ _ f hf) _)

theorem frameArrival (bytes : List Byte) (hp : P s) : P (Machine.frameArrival bytes s) := by
  unfold Machine.frameArrival
  split
  · exact hp
  · split
    · exact h.receive _ hp
    · exact h.receive _ hp

theorem gapTimerExpiry (hp : P s) : P (Machine.gapTimerExpiry s) := by
  unfold Machine.gapTimerExpiry
  split
  · exact hp
  · split
    · exact h.receive _ hp
    · exact hp

theorem sampled (i : InputId) (y : Sensor) (hp : P s) : P (sampledState i y s) := by
  have h₁ : P (s.setSensor i y) := h.same hp rfl rfl
  unfold sampledState
  split
  · exact h₁
  · exact h.raise _ h₁

end KeptByReports

/-! ### The properties kept -/

/-- The property is kept besides by each row of the Duty Program Unit, by what a sample does to a step, by the ticks of the timers and
of the clock, and holds right after reset. -/
structure KeptByPrograms (P : State → Prop) : Prop extends KeptByReports P where
  readProg : ∀ {s : State} (f : Frame) (i : SlotId), P s → P (s.answered f ⟨.done, progBytes i s⟩)
  progLoadFirst : ∀ (p : List Byte) (s : State), fits .progLoadFirst p = true → P s → P (Machine.progLoadFirst p s).2
  progLoadNext : ∀ (p : List Byte) (s : State), P s → P (Machine.progLoadNext p s).2
  progStart : ∀ (p : List Byte) (s : State), P s → P (Machine.progStart p s).2
  progStop : ∀ (p : List Byte) (s : State), P s → P (Machine.progStop p s).2
  reachTimer : ∀ {s : State} (i : SlotId), P s → P (reachTimerExpiry i s)
  holdTimer : ∀ {s : State} (i : SlotId), P s → P (holdTimerExpiry i s)
  gapTimer : ∀ {s : State} (i : SlotId), P s → P (gapTimerExpiryProg i s)
  sampleStep : ∀ {s : State} (c : Channel) (r : Int), P s → P (Machine.sampleStep c r s)
  sensorFailure : ∀ {s : State} (c : Channel), P s → P (Machine.sensorFailure c s)
  seconds : ∀ {s : State}, P s → P (tickSeconds s)
  minute : ∀ {s : State} (m : Nat), P s → P (minuteEvent m s)
  reset : ∀ (speed : LinkSpeed) (bho : Table Bool 6) (olim clim : Table Bool 48) (n : Nat) (pending : List Instr),
    P (afterReset speed bho olim clim n pending)

namespace KeptByPrograms

variable {P : State → Prop} (h : KeptByPrograms P)
include h

/-! ### Requests -/

/-- A request row whose answer, as it becomes ready, keeps the property. -/
theorem request {row : Instr} {body : List Byte → State → Answer × State}
    (hbody : ∀ (f : Frame) (s : State), fits row f.payload = true → P s → P ((body f.payload s).2.answered f (body f.payload s).1))
    (hp : P s) (ht : Machine.request row body s = .next t) : P t := by
  refine running_keeps hp ?_ ht
  rcases execute_cases row body s with e | ⟨f, rest, -, hq, -, -, e⟩ | ⟨f, rest, -, hq, -, hfit, e⟩
  · rwa [e]
  · rw [e]
    exact h.congr (h.congr hp (State.sameDuty_dequeue hq)) (State.sameDuty_answered f (refuse_fits .badLength) _)
  · rw [e]
    exact hbody f _ hfit (h.congr hp (State.sameDuty_dequeue hq))

/-- A request row whose body keeps the property and whose answer fits. -/
theorem request_fits {row : Instr} {body : List Byte → State → Answer × State}
    (hbody : ∀ (p : List Byte) (s : State), fits row p = true → P s → P (body p s).2)
    (hans : ∀ (p : List Byte) (s : State), fits row p = true → (body p s).1.fits) (hp : P s)
    (ht : Machine.request row body s = .next t) : P t :=
  h.request (fun f u hfit hu => h.congr (hbody f.payload u hfit hu) (State.sameDuty_answered f (hans f.payload u hfit) _)) hp ht

theorem readsProg (f : Frame) (hp : P s) :
    P ((Machine.readProg f.payload s).2.answered f (Machine.readProg f.payload s).1) := by
  unfold Machine.readProg
  split
  · exact h.congr hp (State.sameDuty_answered f (refuse_fits _) _)
  · exact h.readProg f _ hp

/-! ### Samples and ticks -/

theorem handSample (c : Channel) (valid : Bool) (r : Int) (before x : Sensor) (hp : P s) :
    P (Machine.handSample c valid r before x s) := by
  unfold Machine.handSample
  split
  · exact h.sampleStep c r (h.modifyOutlet c _ hp)
  · split
    · exact h.sensorFailure c hp
    · exact hp

theorem sampleEvent (i : InputId) (r : Int) (hp : P s) : P (Machine.sampleEvent i r s) := by
  have hs := h.sampled i (sampleRecord (readingValid i r) r (s.sensor i)) hp
  by_cases hi : i.val < 48
  · rw [sampleEvent_branch (c := ⟨i.val, hi⟩) r s rfl]
    exact h.handSample _ _ _ _ _ hs
  · rw [sampleEvent_plant r s (by omega)]
    exact hs

theorem advance (n : Nat) (hp : P s) : P (advanceMs n s) :=
  h.congr hp ⟨rfl, fun _ => .inl, fun _ => .inl⟩

theorem clockTick (hp : P s) : P (Machine.clockTick s) := by
  have h₁ := h.seconds (h.advance (Config.msPerSecond - s.msPhase) hp)
  unfold Machine.clockTick
  simp only
  split
  · exact h.minute _ (h.same h₁ rfl rfl)
  · exact h.same h₁ rfl rfl

theorem idle (hp : P s) : P (Machine.idle s) := by
  unfold Machine.idle
  split
  · exact h.same (h.advance 1 hp) rfl rfl
  · exact hp

theorem frameSent (hp : P s) : P (Machine.frameSent s) := by
  unfold Machine.frameSent
  split
  · exact hp
  · next f rest hq =>
    split
    · exact h.reset ..
    · exact h.congr hp ⟨rfl, fun _ => .inl, fun _ hg => .inl (hq ▸ List.mem_cons_of_mem f hg)⟩

/-! ### Every command, and every step -/

theorem exec {i : Instr} (hp : P s) (ht : Machine.exec i s = .next t) : P t := by
  have req := fun (row : Instr) (body : List Byte → State → Answer × State)
      (hbody : ∀ (p : List Byte) (s : State), P s → P (body p s).2)
      (hans : ∀ (p : List Byte) (s : State), (body p s).1.fits) (ht : Machine.request row body s = .next t) =>
    h.request_fits (fun p u _ => hbody p u) (fun p u _ => hans p u) hp ht
  have reads := fun (row : Instr) (body : List Byte → State → Answer × State) (hb : ∀ p s, (body p s).2 = s) =>
    req row body fun p s hs => (hb p s).symm ▸ hs
  have links := fun (row : Instr) (body : List Byte → State → Answer × State) (hb : ∀ p s, s.sameDuty (body p s).2) =>
    req row body fun p s hs => h.congr hs (hb p s)
  have event := fun (f : State → State) (hf : P (f s)) (ht : running f s = .next t) => running_keeps hp hf ht
  cases i with
  | frameArrival bytes => exact event _ (h.frameArrival bytes hp) ht
  | gapTimerExpiry => exact event _ (h.gapTimerExpiry hp) ht
  | badKind => exact reads _ _ (fun _ _ => rfl) (fun _ _ => refuse_fits _) ht
  | frameSent => exact event _ (h.frameSent hp) ht
  | rstnAsserted => cases ht; exact h.same hp rfl rfl
  | hardwareReset => cases ht; exact h.reset ..
  | outletSet => exact req _ _ h.outletSet (fun _ _ => outletSet_fits) ht
  | outletDrop => exact req _ _ h.outletDrop (fun _ _ => outletDrop_fits) ht
  | profileSet => exact req _ _ h.profileSet (fun _ _ => profileSet_fits) ht
  | barSet => exact req _ _ h.barSet (fun _ _ => barSet_fits) ht
  | demand => exact h.request_fits (fun p u _ => h.demand p u) (fun _ _ => demand_fits) hp ht
  | rehome => exact req _ _ h.rehome (fun _ _ => rehome_fits) ht
  | faultClear => exact req _ _ h.faultClear (fun _ _ => faultClear_fits) ht
  | poolSet => exact req _ _ h.poolSet (fun _ _ => poolSet_fits) ht
  | profileSwap => exact req _ _ h.profileSwap (fun _ _ => profileSwap_fits) ht
  | supply => exact links _ _ (fun _ _ => .of_eq rfl rfl) (fun _ _ => empty_fits _) ht
  | rebalance => exact req _ _ h.rebalance (fun _ _ => rebalance_fits) ht
  | rangeSet => exact req _ _ h.rangeSet (fun _ _ => rangeSet_fits) ht
  | mapSet => exact req _ _ h.mapSet (fun _ _ => mapSet_fits) ht
  | progLoadFirst => exact h.request_fits h.progLoadFirst (fun _ _ _ => progLoadFirst_fits) hp ht
  | progLoadNext => exact req _ _ h.progLoadNext (fun _ _ => progLoadNext_fits) ht
  | progStart => exact req _ _ h.progStart (fun _ _ => progStart_fits) ht
  | progStop => exact req _ _ h.progStop (fun _ _ => progStop_fits) ht
  | clockSet => exact req _ _ h.clockSet (fun _ _ => clockSet_fits) ht
  | readOutlet => exact reads _ _ readOutlet_snd (fun _ _ => readOutlet_fits) ht
  | readPool => exact reads _ _ readPool_snd (fun _ _ => readPool_fits) ht
  | readProg => exact h.request (fun f _ _ => h.readsProg f) hp ht
  | readSensors => exact reads _ _ readSensors_snd (fun _ _ => readSensors_fits) ht
  | readLog => exact links _ _ (fun _ _ => .of_eq rfl rfl) (fun _ _ => readLog_fits) ht
  | readStatus =>
    exact reads _ _ (fun _ _ => rfl) (fun _ s => (statusBytes_length s).trans_le (by decide)) ht
  | noticeAck =>
    exact links _ _ (fun _ _ => ⟨rfl, fun _ => .inl, fun _ => .inl⟩) (fun _ _ => Nat.le_of_ble_eq_true rfl) ht
  | noticeMask => exact req _ _ h.noticeMask (fun _ _ => Nat.le_of_ble_eq_true rfl) ht
  | reset => exact links _ _ (fun _ _ => ⟨rfl, fun _ => .inl, fun _ => .inl⟩) (fun _ _ => empty_fits _) ht
  | roundTimerExpiry p => exact event _ (h.roundTimerExpiry p hp) ht
  | capacityStalenessExpiry => exact event _ (h.capacityStalenessExpiry hp) ht
  | stalenessTimerExpiry c => exact event _ (h.stalenessTimerExpiry c hp) ht
  | warmTimerExpiry c => exact event _ (h.modifyOutlet c _ hp) ht
  | sampleEvent i r => exact event _ (h.sampleEvent i r hp) ht
  | clockTick => exact event _ (h.clockTick hp) ht
  | moveTimerExpiry c => exact event _ (h.moveTimerExpiry c hp) ht
  | checkTimerExpiry c => exact event _ (h.checkTimerExpiry c hp) ht
  | pauseTimerExpiry c => exact event _ (h.pauseTimerExpiry c hp) ht
  | limitEvent c line active => cases ht; exact h.limitEvent c line active hp
  | bhoAssertion b => cases ht; exact h.bhoAssertion b hp
  | bhoRelease b => cases ht; exact h.bhoRelease b hp
  | reachTimerExpiry i => exact event _ (h.reachTimer i hp) ht
  | holdTimerExpiry i => exact event _ (h.holdTimer i hp) ht
  | gapTimerExpiryProg i => exact event _ (h.gapTimer i hp) ht

theorem step (hp : P s) (ht : Machine.step s = .next t) : P t := by
  unfold Machine.step at ht
  split at ht
  · cases ht
    exact h.idle hp
  · next c rest _ => exact h.exec (s := { s with pending := rest }) (h.same hp rfl rfl) ht

end KeptByPrograms

end Sys2Proof.Machine
end

section
/-! The two invariants of O57, each kept by the rows of the Duty Program Unit: the claims and the timers, and the frames with the step
store. -/

namespace Sys2Proof.Machine

variable {s t : State} {i j : SlotId} {c : Channel} {p : List Byte}

/-! ### What the requests write (R138, R139, R141, R143) -/

theorem resolveSteps_length {tr : Translator} {k : Nat} {xs : List CarriedStep} {ys : List Step}
    (h : resolveSteps tr k xs = .ok ys) : ys.length = xs.length := by
  induction xs generalizing k ys with
  | nil => cases h; rfl
  | cons x xs ih =>
    unfold resolveSteps at h
    split at h
    · cases h
    · split at h
      · cases h
      · next zs hz =>
        cases h
        exact congrArg (· + 1) (ih hz)

theorem carriedSteps_length {tr : Translator} {xs : List CarriedStep} {ys : List Step} (h : carriedSteps tr xs = .ok ys) :
    ys.length = xs.length := by
  unfold carriedSteps at h
  split at h
  · cases h
  · exact resolveSteps_length h

theorem readSteps_length (p : List Byte) (off : Nat) : (readSteps p off).length = (p.length - off) / 9 := by
  simp [readSteps]

/-- A FIRST part writes its slot at most: one that may be loaded anew, with as many steps as the payload carries. -/
theorem progLoadFirst_writes (p : List Byte) (s : State) : (progLoadFirst p s).2 = s ∨
    ∃ (i : SlotId) (steps : List Step) (loops : Nat) (start : Option Nat) (interval : Nat) (cont : Bool),
      partCode p = 0 ∧ (s.slot i).state.loadable = true ∧ steps.length = (p.length - 8) / 9 ∧
      steps.length ≤ s.freeSteps + (s.slot i).steps.length ∧
      (progLoadFirst p s).2 = s.setSlot i (loadedSlot steps loops start interval cont) := by
  unfold progLoadFirst
  split
  · exact .inl rfl
  · next i _ =>
    split
    · exact .inl rfl
    · next hpart =>
      split
      · exact .inl rfl
      · next hload =>
        split
        · split
          · unfold loadFirst
            split
            · exact .inl rfl
            · next steps hsteps =>
              split
              · exact .inl rfl
              · next hroom =>
                refine .inr ⟨i, steps.map clampStep, _, _, _, _, by simpa using hpart, by simpa using hload, ?_, ?_, rfl⟩
                · rw [List.length_map, carriedSteps_length hsteps, readSteps_length]
                · simpa using hroom
          · exact .inl rfl
        · exact .inl rfl

/-- A NEXT part appends steps to a LOADED slot at most, within the limits of the slot and of the store. -/
theorem progLoadNext_writes (p : List Byte) (s : State) : (progLoadNext p s).2 = s ∨
    ∃ (i : SlotId) (steps : List Step), (s.slot i).state = .loaded ∧ (s.slot i).steps.length + steps.length ≤ Config.slotSteps ∧
      steps.length ≤ s.freeSteps ∧ (progLoadNext p s).2 = s.setSlot i (appendSteps steps (s.slot i)) := by
  unfold progLoadNext
  split
  · exact .inl rfl
  · next i _ =>
    split
    · exact .inl rfl
    · next hstate =>
      split
      · exact .inl rfl
      · next steps _ =>
        split
        · exact .inl rfl
        · next hslot =>
          split
          · exact .inl rfl
          · next hfree =>
            exact .inr ⟨i, steps.map clampStep, by simpa using hstate, by simpa using hslot, by simpa using hfree, rfl⟩

/-- A PROG-START begins a run of a slot that may be started, or does nothing. -/
theorem progStart_writes (p : List Byte) (s : State) : (progStart p s).2 = s ∨
    ∃ i, (s.slot i).state.startable = true ∧ (progStart p s).2 = startRun i s := by
  unfold progStart
  split
  · exact .inl rfl
  · next i _ =>
    split
    · exact .inl rfl
    · next hs =>
      split
      · exact .inl rfl
      · exact .inr ⟨i, by simpa using hs, rfl⟩

/-- A PROG-STOP stops a run, or does nothing. -/
theorem progStop_writes (p : List Byte) (s : State) : (progStop p s).2 = s ∨ ∃ i, (progStop p s).2 = stopRun i s := by
  unfold progStop
  split
  · exact .inl rfl
  · split
    · exact .inr ⟨_, rfl⟩
    · exact .inl rfl

/-! ### The claims and the timers (R144 to R146, R154) -/

theorem ProgSlot.timersRight.phase_none {x : ProgSlot} (h : x.timersRight) (hs : x.state ≠ .running) : x.phase = .none :=
  not_not.1 fun hp => hs (h.1 hp).1

/-- A step whose timers run is in progress. -/
theorem ProgSlot.timersRight.inProgress {x : ProgSlot} (h : x.timersRight) (ht : x.reach ≠ none ∨ x.hold ≠ none) :
    x.phase ≠ .none := by
  obtain ⟨-, htimers, -⟩ := h
  exact htimers ht

theorem ProgSlot.timersRight.still {x : ProgSlot} (h : x.timersRight) (hp : x.phase = .none) :
    x.reach = none ∧ x.hold = none := by
  have hnone : ¬(x.reach ≠ none ∨ x.hold ≠ none) := fun ht => h.inProgress ht hp
  exact (not_or.1 hnone).imp not_not.1 not_not.1

theorem ProgSlot.timersRight.gap_none {x : ProgSlot} (h : x.timersRight) (hs : x.state ≠ .running) : x.gap = none :=
  not_not.1 fun hg => hs (h.2.2 hg)

/-- The slot as its pass begins, before step 1 does (R141, R142, R154). -/
def ProgSlot.passBegun (x : ProgSlot) (m : Nat) : ProgSlot :=
  { x with state := .running, waitMinute := none, loopStart := m, gap := none, results := x.steps.map fun _ => .notRun }

theorem beginPass_eq (i : SlotId) (m : Nat) (s : State) :
    beginPass i m s = runDuty [.begin_ i 1] (s.setSlot i ((s.slot i).passBegun m)) := rfl

/-- A pass that begins keeps the claims right, and leaves the other slots alone that have no step in progress. -/
theorem beginPass_right (m : Nat) (h : s.claimsRight) (hp : (s.slot i).phase = .none) :
    (beginPass i m s).claimsRight ∧
    ∀ j, i ≠ j → (s.slot j).phase = .none → (beginPass i m s).slot j = s.slot j := by
  obtain ⟨hreach, hhold⟩ := (h.1 i).still hp
  have hbegun : (s.setSlot i ((s.slot i).passBegun m)).claimsRight :=
    h.setSlot_unclaimed (h.unclaimed hp) (.of_still hp hreach hhold (.inl rfl))
  have hready : (s.setSlot i ((s.slot i).passBegun m)).taskReady (.begin_ i 1) := by
    rw [State.taskReady, State.slot_setSlot_same]
    exact ⟨le_rfl, hp, rfl, rfl⟩
  obtain ⟨hright, hleaves⟩ := runTasks_chain (taskBound (s.setSlot i ((s.slot i).passBegun m)))
    (State.chain_single hbegun hready)
  rw [beginPass_eq]
  refine ⟨hright, fun j hj hpj => ?_⟩
  have hslot : (s.setSlot i ((s.slot i).passBegun m)).slot j = s.slot j := (State.slot_setSlot ..).trans (if_neg hj)
  refine (hleaves j ⟨by simpa [DutyTask.owner] using hj, fun c hc => ?_⟩).1.trans hslot
  exact absurd hc (hbegun.unclaimed (hslot ▸ hpj) c).1

/-- The passes of slots with no step in progress begin one after the other (R142). -/
theorem beginPasses_claimsRight (m : Nat) {l : List SlotId} (hn : l.Nodup) (h : s.claimsRight)
    (hl : ∀ i ∈ l, (s.slot i).phase = .none) : (l.foldl (fun s i => beginPass i m s) s).claimsRight := by
  induction l generalizing s with
  | nil => exact h
  | cons i l ih =>
    obtain ⟨hi, hn⟩ := List.nodup_cons.1 hn
    obtain ⟨hright, hleaves⟩ := beginPass_right m h (hl i (by simp))
    refine ih hn hright fun j hj => ?_
    have hp := hl j (by simp [hj])
    rw [hleaves j (fun e => hi (e ▸ hj)) hp]
    exact hp

theorem minuteEvent_claimsRight (m : Nat) (h : s.claimsRight) : (minuteEvent m s).claimsRight :=
  beginPasses_claimsRight m ((indices_nodup 4).filter _) h fun i hi =>
    (h.1 i).phase_none (by simp [(mem_wokenSlots.1 hi).1])

theorem startRun_claimsRight (h : s.claimsRight) (hs : (s.slot i).state ≠ .running) : (startRun i s).claimsRight := by
  have hp := (h.1 i).phase_none hs
  obtain ⟨hreach, hhold⟩ := (h.1 i).still hp
  have hset (x : ProgSlot) (hx : x.timersRight) : (s.setSlot i x).claimsRight := h.setSlot_unclaimed (h.unclaimed hp) hx
  have hgap := (h.1 i).gap_none hs
  have hfresh := hset (freshRun (s.slot i)) (.of_still hp hreach hhold (.inl hgap))
  unfold startRun
  split
  · exact (beginPass_right s.clock.minute hfresh ((congrArg ProgSlot.phase (State.slot_setSlot_same ..)).trans hp)).1
  · exact hset _ (.of_still hp hreach hhold (.inl hgap))

theorem stopRun_claimsRight (i : SlotId) (h : s.claimsRight) : (stopRun i s).claimsRight := by
  obtain ⟨hright, hfree, -, hnew⟩ := releaseStep_releases h i
  have hstopped : ((releaseStep i s).1.modifySlot i stoppedSlot).claimsRight :=
    hright.setSlot_unclaimed hfree (.of_still rfl rfl rfl (.inl rfl))
  unfold stopRun
  simp only
  rcases hnew with e | ⟨c, -, e⟩
  · rw [e, runDuty, runTasks_nil]
    exact hstopped
  · rw [e]
    exact runDuty_claimsRight hstopped trivial

/-- A step that reaches its temperature, or dips, is still in progress (R147, R148). -/
theorem sampleStep_claimsRight (c : Channel) (r : Int) (h : s.claimsRight) : (sampleStep c r s).claimsRight := by
  cases ht : tempHolder c s with
  | none => rwa [sampleStep_none r (by simp [ht])]
  | some q =>
    obtain ⟨i, st⟩ := q
    have hstill (x : ProgSlot) (hrun : (s.slot i).phase ≠ .none) (hx : x.phase ≠ .none) (hcur : x.curStep = (s.slot i).curStep)
        (hsteps : x.steps = (s.slot i).steps) (hstate : x.state = (s.slot i).state) (hgap : x.gap = (s.slot i).gap) :
        (s.setSlot i x).claimsRight := by
      obtain ⟨hs, hg⟩ := (h.1 i).1 hrun
      exact h.setSlot_inProgress ⟨fun _ => ⟨hstate.trans hs, hgap.trans hg⟩, fun _ => hx, fun _ => hstate.trans hs⟩ hx hcur hsteps
    cases hp : (s.slot i).phase with
    | reaching =>
      have hreached := hstill { s.slot i with phase := .holding, reach := none, hold := some (st.holdMin * 60) }
        (by simp [hp]) (by simp) rfl rfl rfl rfl
      rw [sampleStep_reaching r ht hp, reachTemp_eq]
      split
      · split
        · refine runDuty_claimsRight hreached ?_
          rw [State.taskReady, State.slot_setSlot_same]
          simp
        · exact hreached
      · exact h
    | holding =>
      rw [sampleStep_holding r ht hp]
      split
      · by_cases hd : (s.slot i).dips = 2
        · rw [dip_third st hd]
          refine runDuty_claimsRight (hstill _ (by simp [hp]) (by simp [hp]) rfl rfl rfl rfl) ?_
          rw [State.taskReady, State.slot_setSlot_same]
          simp [hp]
        · rw [dip_other st hd]
          exact hstill _ (by simp [hp]) (by simp) rfl rfl rfl rfl
      · exact h
    | none | claiming => simpa [sampleStep, ht, hp] using h

theorem sensorFailure_claimsRight (c : Channel) (h : s.claimsRight) : (sensorFailure c s).claimsRight := by
  unfold sensorFailure
  split
  · exact h
  · split
    · next hp => exact runDuty_claimsRight h (by simp [State.taskReady, hp])
    · next hp => exact runDuty_claimsRight h (by simp [State.taskReady, hp])
    all_goals exact h

theorem tickSlot_timersRight {x : ProgSlot} (h : x.timersRight) : (tickSlot x).timersRight := by
  have hnone : ∀ t : Timer, tickTimer 1 t = none ↔ t = none := fun t => Option.map_eq_none_iff
  simpa only [ProgSlot.timersRight, tickSlot, Ne, hnone] using h

theorem tickSeconds_claimsRight (h : s.claimsRight) : (tickSeconds s).claimsRight := by
  have hslot (i : SlotId) : (tickSeconds s).slot i = tickSlot (s.slot i) := Table.get_map ..
  refine ⟨fun i => hslot i ▸ tickSlot_timersRight (h.1 i), fun c => Claim.fits.imp (h.2 c) fun i _ hon => ?_⟩
  rw [State.stepOn_iff, hslot]
  exact hon

theorem keptByPrograms_claimsRight : KeptByPrograms State.claimsRight where
  congr h hd := h.congr hd.1
  fails why hc h := failStepsOn_claimsRight why h hc
  readProg _ _ h := h.congr rfl
  progLoadFirst p s _ h := by
    rcases progLoadFirst_writes p s with e | ⟨i, steps, loops, start, interval, cont, -, hload, -, -, e⟩
    · rwa [e]
    · have hp := (h.1 i).phase_none fun hs => by simp [hs, SlotState.loadable] at hload
      rw [e]
      exact h.setSlot_unclaimed (h.unclaimed hp) (.of_still rfl rfl rfl (.inl rfl))
  progLoadNext p s h := by
    rcases progLoadNext_writes p s with e | ⟨i, steps, hs, -, -, e⟩
    · rwa [e]
    · have hp := (h.1 i).phase_none (by simp [hs])
      rw [e]
      exact h.setSlot_unclaimed (h.unclaimed hp) (h.1 i)
  progStart p s h := by
    rcases progStart_writes p s with e | ⟨i, hs, e⟩
    · rwa [e]
    · rw [e]
      exact startRun_claimsRight h fun hr => by simp [hr, SlotState.startable] at hs
  progStop p s h := by
    rcases progStop_writes p s with e | ⟨i, e⟩
    · rwa [e]
    · rw [e]
      exact stopRun_claimsRight i h
  reachTimer i h := by
    unfold reachTimerExpiry
    split
    · next hd => exact runDuty_claimsRight h ((h.1 i).inProgress (.inl (by simp [(timerDue_iff _).1 hd])))
    · exact h
  holdTimer i h := by
    unfold holdTimerExpiry
    split
    · next hd => exact runDuty_claimsRight h ((h.1 i).inProgress (.inr (by simp [(timerDue_iff _).1 hd])))
    · exact h
  gapTimer i h := by
    unfold gapTimerExpiryProg
    split
    · next hd =>
      refine (beginPass_right _ h (not_not.1 fun hp => ?_)).1
      simp [((h.1 i).1 hp).2, timerDue] at hd
    · exact h
  sampleStep c r h := sampleStep_claimsRight c r h
  sensorFailure c h := sensorFailure_claimsRight c h
  seconds h := tickSeconds_claimsRight h
  minute m h := minuteEvent_claimsRight m h
  reset _ _ _ _ _ _ := reset_claimsRight.congr rfl

/-! ### What the Duty Program Unit does besides its chains of tasks -/

namespace KeptByDuty

variable {P : State → Prop} (h : KeptByDuty P)
include h

theorem startRun (i : SlotId) (hp : P s) : P (Machine.startRun i s) := by
  unfold Machine.startRun
  split
  · exact h.beginPass _ _ (h.modifySlot _ _ rfl (.inr (List.length_map _)) hp)
  · exact h.modifySlot _ _ rfl (.inr (List.length_map _)) hp

theorem stopRun (i : SlotId) (hp : P s) : P (Machine.stopRun i s) :=
  h.runDuty _ (h.modifySlot _ _ rfl (.inl rfl) (h.releaseStep i hp))

theorem sampleStep (c : Channel) (r : Int) (hp : P s) : P (Machine.sampleStep c r s) := by
  have hset (i : SlotId) (x : ProgSlot) (hs : x.steps = (s.slot i).steps) (hr : x.results = (s.slot i).results) :
      P (s.setSlot i x) := h.slot s i x hs (.inl (congrArg List.length hr)) hp
  have hreach (i : SlotId) (st : Step) : P (reachTemp i st s) := by
    rw [reachTemp_eq]
    split
    · exact h.runDuty _ (hset i _ rfl rfl)
    · exact hset i _ rfl rfl
  have hdip (i : SlotId) (st : Step) : P (dip i st s) := by
    by_cases hd : (s.slot i).dips = 2
    · rw [dip_third st hd]
      exact h.runDuty _ (hset i _ rfl rfl)
    · rw [dip_other st hd]
      exact hset i _ rfl rfl
  unfold Machine.sampleStep
  split
  · exact hp
  · split
    · split
      · exact hreach ..
      · exact hp
    · split
      · exact hdip ..
      · exact hp
    all_goals exact hp

theorem sensorFailure (c : Channel) (hp : P s) : P (Machine.sensorFailure c s) := by
  unfold Machine.sensorFailure
  split
  · exact hp
  · split
    · exact h.runDuty _ hp
    · exact h.runDuty _ hp
    all_goals exact hp

theorem minuteEvent (m : Nat) (hp : P s) : P (Machine.minuteEvent m s) :=
  List.foldlRecOn (motive := P) _ _ hp fun _ hu i _ => h.beginPass i m hu

end KeptByDuty

/-! ### The frames and the step store (R136, R139, R177) -/

/-- A slot written: the store loses its steps and gains the new ones. -/
theorem stepsStored_setSlot (s : State) (i : SlotId) (x : ProgSlot) :
    (s.setSlot i x).stepsStored + (s.slot i).steps.length = s.stepsStored + x.steps.length := by
  have hslots : indices 4 = [0, 1, 2, 3] := rfl
  have hmem : i ∈ indices 4 := by
    rw [indices_eq_finRange]
    exact List.mem_finRange i
  rw [hslots] at hmem
  simp only [State.stepsStored, hslots, List.map_cons, List.map_nil, List.sum_cons, List.sum_nil, State.slot_setSlot]
  simp only [List.mem_cons, List.not_mem_nil, or_false] at hmem
  rcases hmem with rfl | rfl | rfl | rfl <;> simp <;> omega

theorem State.storeBounded.setSlot (h : s.storeBounded) {x : ProgSlot}
    (hroom : s.stepsStored + x.steps.length ≤ Config.storeSteps + (s.slot i).steps.length)
    (hslot : x.steps.length ≤ Config.slotSteps) (hres : x.results.length = x.steps.length) : (s.setSlot i x).storeBounded := by
  refine ⟨?_, fun j => ?_⟩
  · have := stepsStored_setSlot s i x
    omega
  · rw [State.slot_setSlot]
    split
    · exact ⟨hslot, hres⟩
    · exact h.2 j

/-- The store follows from the lengths of the slots' lists. -/
theorem State.storeBounded.congr (h : s.storeBounded) (hsteps : ∀ i, (t.slot i).steps = (s.slot i).steps)
    (hres : ∀ i, (t.slot i).results = (s.slot i).results) : t.storeBounded := by
  simpa only [State.storeBounded, State.stepsStored, hsteps, hres] using h

/-- The frames that wait and the step store are within their limits. -/
def State.framesAndStore (s : State) : Prop :=
  s.framesFit ∧ s.storeBounded

theorem State.framesAndStore.congr (h : s.framesAndStore) (hd : s.sameDuty t) : t.framesAndStore := by
  obtain ⟨⟨hqueue, htx⟩, hstore⟩ := h
  obtain ⟨hduty, hq, ht⟩ := hd
  have hslot (i : SlotId) : t.slot i = s.slot i := by rw [State.slot, hduty]; rfl
  exact ⟨⟨fun f hf => (hq f hf).elim (hqueue f) id, fun f hf => (ht f hf).elim (htx f) id⟩,
    hstore.congr (fun i => by rw [hslot]) fun i => by rw [hslot]⟩

theorem keptByDuty_framesAndStore : KeptByDuty State.framesAndStore where
  slot s i x hsteps hres h := by
    obtain ⟨hframes, hstore⟩ := h
    obtain ⟨hslot, hlist⟩ := hstore.2 i
    have hbound := hstore.1
    refine ⟨hframes, hstore.setSlot ?_ (by rwa [hsteps]) ?_⟩
    · rw [hsteps]
      omega
    · exact hres.elim (fun e => by rw [e, hlist, hsteps]) id
  claim _ _ _ h := h
  raise s k h := h.congr (raise_sameDuty k s)

/-- READ-PROG answers at most 56 bytes. -/
theorem progBytes_fits (i : SlotId) (h : s.storeBounded) (st : Status) : (Answer.mk st (progBytes i s)).fits := by
  obtain ⟨hslot, hlist⟩ := h.2 i
  have hmax : Config.slotSteps = 32 := rfl
  rw [Answer.fits, progBytes_length]
  omega

/-- A FIRST part of a length that fits carries at most 12 steps (R138). -/
theorem firstSteps_le (hfit : fits .progLoadFirst p = true) (hpart : partCode p = 0) : (p.length - 8) / 9 ≤ 12 := by
  have hcode : readByte p 1 = 0 := hpart
  have hfirst : fitsFirst p.length = true := by simpa [fits, hcode] using hfit
  simp only [fitsFirst, Bool.and_eq_true, decide_eq_true_eq] at hfirst
  exact hfirst.2

theorem keptByPrograms_framesAndStore : KeptByPrograms State.framesAndStore where
  congr h hd := h.congr hd
  fails why _ h := keptByDuty_framesAndStore.failStepsOn _ why h
  readProg {s} f i h := h.congr (State.sameDuty_answered f (progBytes_fits i h.2 _) s)
  progLoadFirst p s hfit h := by
    obtain ⟨hframes, hstore⟩ := h
    rcases progLoadFirst_writes p s with e | ⟨i, steps, loops, start, interval, cont, hpart, -, hlen, hroom, e⟩
    · rw [e]
      exact ⟨hframes, hstore⟩
    · have hcarried := firstSteps_le hfit hpart
      have hbound := hstore.1
      have hmax : Config.slotSteps = 32 := rfl
      rw [e]
      refine ⟨hframes, hstore.setSlot ?_ ?_ (List.length_map _)⟩
      · simp only [State.freeSteps] at hroom
        simp only [loadedSlot]
        omega
      · simp only [loadedSlot]
        omega
  progLoadNext p s h := by
    obtain ⟨hframes, hstore⟩ := h
    rcases progLoadNext_writes p s with e | ⟨i, steps, -, hslot, hfree, e⟩
    · rw [e]
      exact ⟨hframes, hstore⟩
    · have hbound := hstore.1
      obtain ⟨-, hlist⟩ := hstore.2 i
      rw [e]
      refine ⟨hframes, hstore.setSlot ?_ ?_ ?_⟩
      · simp only [State.freeSteps] at hfree
        simp only [appendSteps, List.length_append]
        omega
      · simpa only [appendSteps, List.length_append] using hslot
      · simp only [appendSteps, List.length_append, List.length_map, hlist]
  progStart p s h := by
    rcases progStart_writes p s with e | ⟨i, -, e⟩
    · rwa [e]
    · rw [e]
      exact keptByDuty_framesAndStore.startRun i h
  progStop p s h := by
    rcases progStop_writes p s with e | ⟨i, e⟩
    · rwa [e]
    · rw [e]
      exact keptByDuty_framesAndStore.stopRun i h
  reachTimer i h := by
    unfold reachTimerExpiry
    split
    · exact keptByDuty_framesAndStore.runDuty _ h
    · exact h
  holdTimer i h := by
    unfold holdTimerExpiry
    split
    · exact keptByDuty_framesAndStore.runDuty _ h
    · exact h
  gapTimer i h := by
    unfold gapTimerExpiryProg
    split
    · exact keptByDuty_framesAndStore.beginPass i _ h
    · exact h
  sampleStep c r h := keptByDuty_framesAndStore.sampleStep c r h
  sensorFailure c h := keptByDuty_framesAndStore.sensorFailure c h
  seconds {s} h := by
    have hslot (i : SlotId) : (tickSeconds s).slot i = tickSlot (s.slot i) := Table.get_map ..
    exact ⟨h.1, h.2.congr (fun i => by rw [hslot]; rfl) fun i => by rw [hslot]; rfl⟩
  minute m h := keptByDuty_framesAndStore.minuteEvent m h
  reset _ _ _ _ _ _ :=
    ⟨⟨fun _ hf => (List.not_mem_nil hf).elim, fun _ hf => (List.not_mem_nil hf).elim⟩,
      reset_storeBounded.congr (fun _ => rfl) fun _ => rfl⟩

/-- Settles O57: each of the two invariants is kept by what an event can do to the programs and the frames, and so by every step. -/
theorem stepKeepsFramesAndStore : Obligations.StepKeepsFramesAndStore := by
  unfold Obligations.StepKeepsFramesAndStore
  intro s t ht
  exact ⟨fun hframes hstore => keptByPrograms_framesAndStore.step ⟨hframes, hstore⟩ ht,
    fun hclaims => keptByPrograms_claimsRight.step hclaims ht⟩

end Sys2Proof.Machine
end

section
/-! PROG-LOAD (R138 to R140): the row of a part, the carried steps, and each check in its order. -/

namespace Sys2Proof.Machine

variable {s : State} {f : Frame} {p : List Byte} {tr : Translator} {i : SlotId} {off n k : Nat}

/-! ### The row of a part (R180) -/

theorem requestRow_first (hk : f.kind = 0x0E) (hp : readByte f.payload 1 ≠ 1) : requestRow f = .progLoadFirst := by
  have hpart : partCode f.payload ≠ 1 := hp
  rw [requestRow, hk, if_neg fun h => hpart h.2]
  rfl

theorem requestRow_next (hk : f.kind = 0x0E) (hp : readByte f.payload 1 = 1) : requestRow f = .progLoadNext := by
  have hpart : partCode f.payload = 1 := hp
  rw [requestRow, hk, if_pos ⟨rfl, hpart⟩]

theorem fits_first (hl : p.length = 8 + 9 * n) (hn : n ≤ 12) : fits .progLoadFirst p = true := by
  simp only [fits, fitsFirst, hl, Bool.or_eq_true, Bool.and_eq_true, decide_eq_true_eq, beq_iff_eq]
  exact .inl ⟨⟨by omega, by omega⟩, by omega⟩

theorem fits_next (hl : p.length = 2 + 9 * n) (h1 : 1 ≤ n) (hn : n ≤ 12) : fits .progLoadNext p = true := by
  simp only [fits, fitsNext, hl, Bool.and_eq_true, decide_eq_true_eq, beq_iff_eq]
  exact ⟨⟨by omega, by omega⟩, by omega⟩

theorem fits_unknownPart (hl : p.length = 2 + 9 * n) (h1 : 1 ≤ n) (hn : n ≤ 12) (hp : readByte p 1 ≠ 0) :
    fits .progLoadFirst p = true := by
  have hnext : fitsNext p.length = true := fits_next (p := p) hl h1 hn
  simp [fits, hp, hnext]

/-! ### The carried steps (11.5) -/

/-- A carried step with its class named and its address translated, before any clamp. -/
def CarriedStep.resolved (tr : Translator) (x : CarriedStep) : Step :=
  { channel := (translate tr x.addr).toOption.getD 0, kw := x.kw, cls := (classOf x.clsCode).getD .sanitary,
    targetTemp := x.targetTemp, reachMin := x.reachMin, holdMin := x.holdMin }

theorem checkClasses_good {xs : List CarriedStep} (h : ∀ x ∈ xs, (classOf x.clsCode).isSome) : checkClasses k xs = none := by
  induction xs generalizing k with
  | nil => rfl
  | cons x xs ih =>
    rw [checkClasses, if_neg (by simpa using Option.isSome_iff_ne_none.1 (h x (by simp)))]
    exact ih fun y hy => h y (by simp [hy])

/-- The first bad class is the one refused. -/
theorem checkClasses_bad {xs ys : List CarriedStep} {x : CarriedStep} (h : ∀ y ∈ xs, (classOf y.clsCode).isSome)
    (hx : classOf x.clsCode = none) : checkClasses k (xs ++ x :: ys) = some (refuseStep .range (k + xs.length)) := by
  induction xs generalizing k with
  | nil => simp [checkClasses, hx]
  | cons y xs ih =>
    rw [List.cons_append, checkClasses, if_neg (by simpa using Option.isSome_iff_ne_none.1 (h y (by simp))),
      ih fun z hz => h z (by simp [hz]), List.length_cons, Nat.add_right_comm, Nat.add_assoc]

theorem resolveSteps_good {xs : List CarriedStep} (h : ∀ x ∈ xs, ∃ c, translate tr x.addr = .ok c) :
    resolveSteps tr k xs = .ok (xs.map (CarriedStep.resolved tr)) := by
  induction xs generalizing k with
  | nil => rfl
  | cons x xs ih =>
    obtain ⟨c, hc⟩ := h x (by simp)
    simp [resolveSteps, hc, ih fun y hy => h y (by simp [hy]), CarriedStep.resolved, Except.toOption]

/-- The first address that does not translate is the one refused. -/
theorem resolveSteps_bad {xs ys : List CarriedStep} {x : CarriedStep} {st : Status}
    (h : ∀ y ∈ xs, ∃ c, translate tr y.addr = .ok c) (hx : translate tr x.addr = .error st) :
    resolveSteps tr k (xs ++ x :: ys) = .error (refuseStep st (k + xs.length)) := by
  induction xs generalizing k with
  | nil => simp [resolveSteps, hx]
  | cons y xs ih =>
    obtain ⟨c, hc⟩ := h y (by simp)
    have hrest := ih (k := k + 1) fun z hz => h z (by simp [hz])
    simp only [List.cons_append, resolveSteps, hc, hrest, List.length_cons]
    rw [Nat.add_right_comm, Nat.add_assoc]

theorem getElem?_readSteps (hl : p.length = off + 9 * n) (hk : k < n) :
    (readSteps p off)[k]? = some (readStep p (off + 9 * k)) := by
  have hn : (p.length - off) / 9 = n := by omega
  simp [readSteps, hn, hk]

theorem mem_readSteps (hl : p.length = off + 9 * n) {x : CarriedStep} :
    x ∈ readSteps p off ↔ ∃ k < n, readStep p (off + 9 * k) = x := by
  have hn : (p.length - off) / 9 = n := by omega
  simp [readSteps, hn]

/-- The carried steps around the one at index `k`. -/
theorem readSteps_split (hl : p.length = off + 9 * n) (hk : k < n) : ∃ xs ys : List CarriedStep,
    readSteps p off = xs ++ readStep p (off + 9 * k) :: ys ∧ xs.length = k ∧
    ∀ x ∈ xs, ∃ j < k, readStep p (off + 9 * j) = x := by
  have hlen : (readSteps p off).length = n := by rw [readSteps_length]; omega
  have hk' : k < (readSteps p off).length := by omega
  refine ⟨(readSteps p off).take k, (readSteps p off).drop (k + 1), ?_, by rw [List.length_take]; omega, fun x hx => ?_⟩
  · have hget : (readSteps p off)[k] = readStep p (off + 9 * k) :=
      Option.some.inj ((List.getElem?_eq_getElem hk').symm.trans (getElem?_readSteps hl hk))
    rw [← hget, List.cons_getElem_drop_succ, List.take_append_drop]
  · obtain ⟨j, hj, rfl⟩ := List.mem_iff_getElem.1 hx
    have hjk : j < k := by rw [List.length_take] at hj; omega
    refine ⟨j, hjk, ?_⟩
    rw [List.getElem_take]
    exact Option.some.inj ((getElem?_readSteps hl (hjk.trans hk)).symm.trans (List.getElem?_eq_getElem _))

theorem classOf_isSome {m : Nat} : (classOf m).isSome ↔ m < 4 := by
  constructor
  · intro h
    by_contra hm
    rw [classOf_eq_none (by omega)] at h
    cases h
  · intro h
    match m, h with
    | 0, _ | 1, _ | 2, _ | 3, _ => rfl

/-- The first bad step is the one refused (R138 checks 4 and 5, R139 checks 3 and 4). -/
theorem carriedSteps_bad {st : Status} (hl : p.length = off + 9 * n) (h : firstBadStep tr p off n k st) :
    carriedSteps tr (readSteps p off) = .error (refuseStep st (k + 1)) := by
  obtain ⟨hk, h⟩ := h
  obtain ⟨xs, ys, hsplit, hlen, hxs⟩ := readSteps_split hl hk
  rcases h with ⟨rfl, hbad, hgood⟩ | ⟨hgood, hbad, hok⟩
  · have hclass : checkClasses 1 (readSteps p off) = some (refuseStep .range (k + 1)) := by
      rw [hsplit, checkClasses_bad _ (classOf_eq_none hbad), hlen, Nat.add_comm]
      intro x hx
      obtain ⟨j, hj, rfl⟩ := hxs x hx
      exact classOf_isSome.2 (hgood j hj)
    rw [carriedSteps, hclass]
  · have hclass : checkClasses 1 (readSteps p off) = none := checkClasses_good fun x hx => by
      obtain ⟨j, hj, rfl⟩ := (mem_readSteps hl).1 hx
      exact classOf_isSome.2 (hgood j hj)
    rw [carriedSteps, hclass, hsplit]
    refine (resolveSteps_bad ?_ hbad).trans (by rw [hlen, Nat.add_comm])
    intro x hx
    obtain ⟨j, hj, rfl⟩ := hxs x hx
    exact hok j hj

/-! ### The clamps of a step (R140) -/

theorem clampStep_eq_self_iff {x : Step} : clampStep x = x ↔ 1 ≤ x.kw ∧ x.kw ≤ 2000 ∧ -200 ≤ x.targetTemp ∧
    x.targetTemp ≤ 2000 ∧ 1 ≤ x.reachMin ∧ x.reachMin ≤ 240 ∧ x.holdMin ≤ 240 := by
  cases x
  simp only [clampStep, clampNat, clampTemp, Step.mk.injEq, true_and]
  omega

/-- The steps that a part of good steps brings: their clamped values, and whether a clamp was called for. -/
theorem carriedSteps_good {steps : List Step} (hl : p.length = off + 9 * n) (h : carriesSteps tr p off n steps) :
    ∃ raw : List Step, carriedSteps tr (readSteps p off) = .ok raw ∧ raw.map clampStep = steps ∧ raw.length = n ∧
      (raw.any clampsStep = false ↔ stepsInRange p off n) := by
  obtain ⟨hlen, hsteps⟩ := h
  have hclass : checkClasses 1 (readSteps p off) = none := checkClasses_good fun x hx => by
    obtain ⟨j, hj, rfl⟩ := (mem_readSteps hl).1 hx
    obtain ⟨c, cls, -, hcls, -⟩ := hsteps j hj
    exact Option.isSome_of_eq_some hcls
  refine ⟨(readSteps p off).map (CarriedStep.resolved tr), ?_, ?_, ?_, ?_⟩
  · rw [carriedSteps, hclass]
    refine resolveSteps_good fun x hx => ?_
    obtain ⟨j, hj, rfl⟩ := (mem_readSteps hl).1 hx
    obtain ⟨c, cls, hc, -, -⟩ := hsteps j hj
    exact ⟨c, hc⟩
  · refine List.ext_getElem? fun j => ?_
    by_cases hj : j < n
    · obtain ⟨c, cls, hc, hcls, hst⟩ := hsteps j hj
      rw [List.getElem?_map, List.getElem?_map, getElem?_readSteps hl hj, hst]
      simp only [Option.map_some, CarriedStep.resolved, readStep, hc, hcls, Except.toOption, Option.getD_some]
      rfl
    · have hraw : (((readSteps p off).map (CarriedStep.resolved tr)).map clampStep).length = n := by
        rw [List.length_map, List.length_map, readSteps_length]
        omega
      rw [List.getElem?_eq_none (by omega), List.getElem?_eq_none (by omega)]
  · rw [List.length_map, readSteps_length]
    omega
  · simp only [List.any_eq_false, clampsStep, decide_eq_true_eq, not_not, List.forall_mem_map, clampStep_eq_self_iff]
    constructor
    · exact fun hall k hk => hall _ ((mem_readSteps hl).2 ⟨k, hk, rfl⟩)
    · rintro hall x hx
      obtain ⟨k, hk, rfl⟩ := (mem_readSteps hl).1 hx
      exact hall k hk

/-! ### The checks of a FIRST part (R138) -/

theorem slotOf_none {m : Nat} (h : 4 ≤ m) : slotOf m = none := dif_neg (by omega)

theorem startOf_eq_none {m : Nat} (h : 10080 ≤ m) (h' : m ≠ 0xFFFF) : startOf m = none := by
  exact (if_neg h').trans (if_neg (Nat.not_lt.2 h))

theorem startOf_eq_some {m : Nat} {start : Option Nat}
    (h : m = 0xFFFF ∧ start = none ∨ m < 10080 ∧ start = some m) : startOf m = some start := by
  rcases h with ⟨rfl, rfl⟩ | ⟨hm, rfl⟩
  · rfl
  · exact (if_neg (by omega)).trans (if_pos hm)

theorem progLoadFirst_badSlot (h : 4 ≤ readByte p 0) : progLoadFirst p s = (refuseStep .range 0, s) := by
  simp [progLoadFirst, slotOf_none h]

theorem progLoadFirst_unknownPart (h : 2 ≤ readByte p 1) : progLoadFirst p s = (refuseStep .range 0, s) := by
  have hpart : partCode p ≠ 0 := by
    have : readByte p 1 ≠ 0 := by omega
    exact this
  unfold progLoadFirst
  split
  · rfl
  · exact if_pos hpart

theorem SlotState.loadable_of_ne {x : SlotState} (h₁ : x ≠ .waiting) (h₂ : x ≠ .running) : x.loadable = true := by
  cases x with
  | waiting => exact absurd rfl h₁
  | running => exact absurd rfl h₂
  | empty | loaded | done | faulted | stopped => rfl

section
variable (hi : i.val = readByte p 0) (hp : readByte p 1 = 0)
include hi hp

theorem progLoadFirst_busy (h : (s.slot i).state = .waiting ∨ (s.slot i).state = .running) :
    progLoadFirst p s = (refuseStep .state 0, s) := by
  have hpart : partCode p = 0 := hp
  have hload : (s.slot i).state.loadable = false := by rcases h with h | h <;> rw [h] <;> rfl
  simp [progLoadFirst, slotOf_val hi, hpart, hload]

variable (hload : (s.slot i).state.loadable = true)
include hload

theorem progLoadFirst_badSettings
    (h : 10080 ≤ readWord p 3 ∧ readWord p 3 ≠ 0xFFFF ∨ 10080 ≤ readWord p 5 ∨ 2 ≤ readByte p 7) :
    progLoadFirst p s = (refuseStep .range 0, s) := by
  have hpart : partCode p = 0 := hp
  cases hs : startOf (readWord p 3) with
  | none => simp [progLoadFirst, slotOf_val hi, hpart, hload, hs]
  | some start =>
    cases hf : flagOf (readByte p 7) with
    | none => simp [progLoadFirst, slotOf_val hi, hpart, hload, hs, hf]
    | some cont =>
      have hweek : Config.weekMinutes ≤ readWord p 5 := by
        rcases h with ⟨h, h'⟩ | h | h
        · simp [startOf_eq_none h h'] at hs
        · exact h
        · simp [flagOf_eq_none h] at hf
      simp [progLoadFirst, slotOf_val hi, hpart, hload, hs, hf, hweek]

theorem progLoadFirst_loads {start : Option Nat} {cont : Bool}
    (hs : readWord p 3 = 0xFFFF ∧ start = none ∨ readWord p 3 < 10080 ∧ start = some (readWord p 3))
    (hw : readWord p 5 < 10080) (hc : readByte p 7 = cont.toNat) : progLoadFirst p s = loadFirst i p start cont s := by
  have hpart : partCode p = 0 := hp
  have hweek : readWord p 5 < Config.weekMinutes := hw
  simp [progLoadFirst, slotOf_val hi, hpart, hload, startOf_eq_some hs, hc, flagOf_toNat, hweek]

end

/-! ### The load of a FIRST part -/

section
variable {start : Option Nat} {cont : Bool} {raw : List Step}

theorem loadFirst_bad {a : Answer} (h : carriedSteps s.xlat (readSteps p 8) = .error a) : loadFirst i p start cont s = (a, s) := by
  simp [loadFirst, h]

theorem loadFirst_noSpace (h : carriedSteps s.xlat (readSteps p 8) = .ok raw)
    (hroom : s.freeSteps + (s.slot i).steps.length < raw.length) : loadFirst i p start cont s = (refuseStep .noSpace 0, s) := by
  simp [loadFirst, h, hroom]

theorem loadFirst_done (h : carriedSteps s.xlat (readSteps p 8) = .ok raw)
    (hroom : raw.length ≤ s.freeSteps + (s.slot i).steps.length) : loadFirst i p start cont s =
      (⟨doneStatus (raw.any clampsStep), []⟩,
        s.setSlot i (loadedSlot (raw.map clampStep) (readByte p 2) start (readWord p 5) cont)) := by
  simp [loadFirst, h, Nat.not_lt.2 hroom]

end

/-! ### The checks of a NEXT part (R139) -/

theorem progLoadNext_badSlot (h : 4 ≤ readByte p 0) : progLoadNext p s = (refuseStep .range 0, s) := by
  simp [progLoadNext, slotOf_none h]

section
variable (hi : i.val = readByte p 0)
include hi

theorem progLoadNext_notLoaded (h : (s.slot i).state ≠ .loaded) : progLoadNext p s = (refuseStep .state 0, s) := by
  simp [progLoadNext, slotOf_val hi, h]

variable (hs : (s.slot i).state = .loaded) {raw : List Step}
include hs

theorem progLoadNext_bad {a : Answer} (h : carriedSteps s.xlat (readSteps p 2) = .error a) : progLoadNext p s = (a, s) := by
  simp [progLoadNext, slotOf_val hi, hs, h]

variable (h : carriedSteps s.xlat (readSteps p 2) = .ok raw)
include h

theorem progLoadNext_slotFull (hslot : Config.slotSteps < (s.slot i).steps.length + raw.length) :
    progLoadNext p s = (refuseStep .range 0, s) := by
  simp [progLoadNext, slotOf_val hi, hs, h, hslot]

theorem progLoadNext_noSpace (hslot : (s.slot i).steps.length + raw.length ≤ Config.slotSteps)
    (hfree : s.freeSteps < raw.length) : progLoadNext p s = (refuseStep .noSpace 0, s) := by
  simp [progLoadNext, slotOf_val hi, hs, h, Nat.not_lt.2 hslot, hfree]

theorem progLoadNext_done (hslot : (s.slot i).steps.length + raw.length ≤ Config.slotSteps)
    (hfree : raw.length ≤ s.freeSteps) : progLoadNext p s =
      (⟨doneStatus (raw.any clampsStep), []⟩, s.setSlot i (appendSteps (raw.map clampStep) (s.slot i))) := by
  simp [progLoadNext, slotOf_val hi, hs, h, Nat.not_lt.2 hslot, Nat.not_lt.2 hfree, State.modifySlot]

end

theorem freeSteps_eq (s : State) : s.freeSteps = 64 - s.stepsStored := rfl

theorem map_notRun (l : List Step) : l.map (fun _ => StepResult.notRun) = List.replicate l.length .notRun :=
  List.map_const' ..

/-- Settles O49: the checks of R138 in their order, each as the equation of its branch. -/
theorem firstPartReplacesProgram : Obligations.FirstPartReplacesProgram := by
  unfold Obligations.FirstPartReplacesProgram
  refine ⟨fun s f rest k ht hk h1 hk12 hlen hpart => ?_, fun s f rest n ht hk hlen hn hpart hstored => ?_⟩
  · exact request_answers ht (requestRow_first hk (by omega)) (fits_unknownPart hlen h1 hk12 (by omega))
      (progLoadFirst_unknownPart hpart)
  · have answers {a : Answer} {t : State} (h : progLoadFirst f.payload (s.dequeue rest) = (a, t)) :
        exec .progLoadFirst s = .next (t.answered f a) :=
      request_answers ht (requestRow_first hk hpart) (fits_first hlen hn) h
    refine ⟨fun h => answers (h.elim progLoadFirst_badSlot progLoadFirst_unknownPart), fun i hi hp =>
      ⟨fun h => answers (progLoadFirst_busy hi hp h), fun h₁ h₂ => ?_⟩⟩
    have hload : ((s.dequeue rest).slot i).state.loadable = true := SlotState.loadable_of_ne h₁ h₂
    refine ⟨fun h => answers (progLoadFirst_badSettings hi hp hload h), fun start cont hs hw hc => ?_⟩
    have hloads := progLoadFirst_loads hi hp hload hs hw hc
    refine ⟨fun k st hbad => answers (hloads.trans (loadFirst_bad (carriedSteps_bad hlen hbad))), fun steps hsteps => ?_⟩
    obtain ⟨raw, hraw, rfl, rfl, hclamps⟩ := carriedSteps_good hlen hsteps
    obtain ⟨hstatus, hdone⟩ := doneStatus_cases (raw.any clampsStep)
    have hfree := freeSteps_eq s
    refine ⟨fun hfull => answers (hloads.trans (loadFirst_noSpace hraw ?_)), fun hroom =>
      ⟨_, hstatus, hdone.trans hclamps, (answers (hloads.trans (loadFirst_done hraw ?_))).trans ?_⟩⟩
    · simp only [State.dequeue_freeSteps, State.dequeue_slot]
      omega
    · simp only [State.dequeue_freeSteps, State.dequeue_slot]
      omega
    · simp only [loadedSlot, map_notRun, List.isEmpty_iff, List.map_eq_nil_iff, List.length_map, List.length_eq_zero_iff]

/-- Settles O50: the checks of R139 in their order, each as the equation of its branch. -/
theorem nextPartAppendsSteps : Obligations.NextPartAppendsSteps := by
  unfold Obligations.NextPartAppendsSteps
  intro s f rest n ht hk hlen h1 hn hpart hstored
  have answers {a : Answer} {t : State} (h : progLoadNext f.payload (s.dequeue rest) = (a, t)) :
      exec .progLoadNext s = .next (t.answered f a) :=
    request_answers ht (requestRow_next hk hpart) (fits_next hlen h1 hn) h
  refine ⟨fun h => answers (progLoadNext_badSlot h), fun i hi =>
    ⟨fun h => answers (progLoadNext_notLoaded hi h), fun hs => ?_⟩⟩
  have hs' : ((s.dequeue rest).slot i).state = .loaded := hs
  refine ⟨fun k st hbad => answers (progLoadNext_bad hi hs' (carriedSteps_bad hlen hbad)), fun steps hsteps => ?_⟩
  obtain ⟨raw, hraw, rfl, rfl, hclamps⟩ := carriedSteps_good hlen hsteps
  obtain ⟨hstatus, hdone⟩ := doneStatus_cases (raw.any clampsStep)
  have hfree := freeSteps_eq s
  refine ⟨fun hslot => answers (progLoadNext_slotFull hi hs' hraw hslot),
    fun hslot hfull => answers (progLoadNext_noSpace hi hs' hraw hslot ?_),
    fun hslot hroom => ⟨_, hstatus, hdone.trans hclamps, (answers (progLoadNext_done hi hs' hraw hslot ?_)).trans ?_⟩⟩
  · rw [State.dequeue_freeSteps]
    omega
  · rw [State.dequeue_freeSteps]
    omega
  · simp only [appendSteps, map_notRun, List.length_map, State.dequeue_slot]

end Sys2Proof.Machine
end

section
/-! The chain of tasks of one event, run to its end (R143 to R154): where a claim comes to rest, how a step begins and ends, and how
its slot goes on. Each runs within the bound of an event. -/

namespace Sys2Proof.Machine

variable {s t u v : State} {c : Channel} {i j : SlotId} {ts us : List DutyTask} {m k : Nat} {why : FailReason} {st : Step}

/-! ### Tasks run to their end -/

/-- The tasks `ts` run from `s` to `t`, in at most `m` tasks and whatever waits behind them. -/
def State.runsTo (s : State) (ts : List DutyTask) (m : Nat) (t : State) : Prop :=
  ∃ f ≤ m, ∀ (n : Nat) (us : List DutyTask), runTasks (n + f) (ts ++ us) s = runTasks n us t

theorem State.runsTo_nil (s : State) (m : Nat) : s.runsTo [] m s :=
  ⟨0, Nat.zero_le _, fun _ _ => rfl⟩

theorem State.runsTo.mono (h : s.runsTo ts m t) (hm : m ≤ k) : s.runsTo ts k t := by
  obtain ⟨f, hf, h⟩ := h
  exact ⟨f, hf.trans hm, h⟩

theorem State.runsTo.append (h : s.runsTo ts m u) (h' : u.runsTo us k t) : s.runsTo (ts ++ us) (m + k) t := by
  obtain ⟨f, hf, h⟩ := h
  obtain ⟨g, hg, h'⟩ := h'
  refine ⟨f + g, Nat.add_le_add hf hg, fun n vs => ?_⟩
  rw [List.append_assoc, Nat.add_comm f, ← Nat.add_assoc, h, h']

/-- A task, and then the tasks it puts in front. -/
theorem State.runsTo.task {x : DutyTask} (hx : runTask x s = (u, us)) (h : u.runsTo us m t) : s.runsTo [x] (m + 1) t := by
  obtain ⟨f, hf, h⟩ := h
  refine ⟨f + 1, Nat.succ_le_succ hf, fun n vs => ?_⟩
  rw [List.singleton_append, ← Nat.add_assoc, runTasks_cons, hx, h]

/-- A task that puts nothing in front. -/
theorem State.runsTo.last {x : DutyTask} (hx : runTask x s = (t, [])) : s.runsTo [x] 1 t :=
  .task hx (t.runsTo_nil 0)

/-- The bound of an event is at least 64 tasks. -/
theorem State.runsTo.runDuty (h : s.runsTo ts m t) (hm : m ≤ 64) : runDuty ts s = t := by
  obtain ⟨f, hf, h⟩ := h
  have hbound : taskBound s = taskBound s - f + f := by
    unfold taskBound
    omega
  have hrun := h (taskBound s - f) []
  rwa [List.append_nil, ← hbound, runTasks_nil] at hrun

/-! ### A claim comes to rest (R146) -/

theorem claimDemand_eq {o : Outlet} (ho : s.outlet c = some o) (st : Step) : claimDemand c st s = min st.kw o.fixed.ratedKw := by
  simp [claimDemand, ho]

theorem takeClaim_rests {rest : List SlotId} (hst : (s.slot j).currentStep = some st)
    (hrest : (s.claim c).waiters.filter (fun x => x ≠ j) = rest) (h : s.takesClaim t c j st rest) : takeClaim c j s = (t, []) := by
  obtain ⟨o, u, ho, hu, h⟩ := h
  have htaken : s.claimTaken c j st = u := by rw [State.claimTaken, hrest, claimDemand_eq ho, hu]
  rcases h with ⟨ht, hf, rfl⟩ | ⟨ht, hhold, rfl⟩
  · rw [takeClaim_reaches hst ht hf, htaken]
  · rw [takeClaim_holds hst ht, htaken, if_neg (by omega)]

theorem passOn_free (h : s.claim c = { holder := none, waiters := [] }) : runTask (.passOn c) s = (s, []) := by
  simp [runTask, passOnClaim, h]

theorem passOn_head {rest : List SlotId} (h : s.claim c = { holder := none, waiters := j :: rest }) :
    runTask (.passOn c) s = (s, [.take c j]) := by
  simp [runTask, passOnClaim, h]

theorem filter_head {rest : List SlotId} (h : j ∉ rest) : (j :: rest).filter (fun x => x ≠ j) = rest := by
  rw [List.filter_cons_of_neg (by simp), List.filter_eq_self]
  intro x hx
  simpa using fun e : x = j => h (e ▸ hx)

/-- A released claim comes to rest, one head of its queue after the other, and no slot is written that does not wait for it. -/
theorem State.PassesOn.chain (h : State.PassesOn c s t) :
    (∃ l : List SlotId, l.Nodup ∧ (∀ x ∈ l, x ∈ (s.claim c).waiters) ∧ s.runsTo [.passOn c] (4 * l.length + 2) t) ∧
    ∀ k ∉ (s.claim c).waiters, t.slot k = s.slot k := by
  induction h with
  | free s h => exact ⟨⟨[], List.nodup_nil, by simp, (State.runsTo.last (passOn_free h)).mono (by decide)⟩, fun _ _ => rfl⟩
  | taken s t j rest st h hj hst ht =>
    have hrest : (s.claim c).waiters.filter (fun x => x ≠ j) = rest := by rw [h]; exact filter_head hj
    refine ⟨⟨[], List.nodup_nil, by simp, .task (passOn_head h) (.task (takeClaim_rests hst hrest ht) (t.runsTo_nil 0))⟩,
      fun k hk => ?_⟩
    have hkj : j ≠ k := fun e => hk (by rw [h, e]; simp)
    obtain ⟨o, u, -, rfl, ⟨-, -, rfl⟩ | ⟨-, -, rfl⟩⟩ := ht
    · exact (State.slot_setSlot ..).trans (if_neg hkj)
    · exact (State.slot_setSlot ..).trans (if_neg hkj)
  | sensor s t j rest st h hj hst hc ht hf hend _ ih =>
    subst hc
    obtain ⟨⟨l, hn, hl, hrun⟩, hslots⟩ := ih
    simp only [State.claim_setClaim_same] at hl hslots
    have hrest : (s.claim st.channel).waiters.filter (fun x => x ≠ j) = rest := by rw [h]; exact filter_head hj
    have hfree : releaseStep j (s.claimTaken st.channel j st) =
        (s.setClaim st.channel { holder := none, waiters := rest }, [.passOn st.channel]) := by
      have hst' : ((s.claimTaken st.channel j st).slot j).currentStep = some st := hst
      have htaken : (s.claimTaken st.channel j st).claim st.channel = _ := State.claim_setClaim_same ..
      rw [releaseStep_holder hst' (congrArg Claim.holder htaken) rfl, htaken, State.claimTaken, State.setClaim_setClaim, hrest]
    have hfail : runTask (.fail j .sensor) (s.claimTaken st.channel j st) =
        (s.setClaim st.channel { holder := none, waiters := rest }, [.passOn st.channel] ++ [.settle j .sensor]) := by
      rw [runTask, failStep, hfree]
    have hsettle : runTask (.settle j .sensor) t = (t.runFaulted j .sensor, []) :=
      settleFailure_ends (by rw [hslots j hj]; exact hend)
    refine ⟨⟨j :: l, List.nodup_cons.2 ⟨fun hm => hj (hl j hm), hn⟩, fun x hx => ?_, ?_⟩, fun k hk => ?_⟩
    · rw [h]
      exact (List.mem_cons.1 hx).elim (fun e => by simp [e]) fun hx => List.mem_cons_of_mem _ (hl x hx)
    · exact .task (passOn_head h) (.task (takeClaim_fails hst ht hf) (.task hfail (hrun.append (.last hsettle))))
    · rw [h, List.mem_cons, not_or] at hk
      rw [State.runFaulted, raise_slot, State.slot_setSlot, if_neg (Ne.symm hk.1), hslots k hk.2]
      rfl

/-- At most four steps wait for a claim, so it comes to rest in 18 tasks. -/
theorem State.PassesOn.runs (h : State.PassesOn c s t) : s.runsTo [.passOn c] 18 t := by
  obtain ⟨⟨l, hn, -, hrun⟩, -⟩ := h.chain
  have hlen : l.length ≤ 4 := hn.length_le_card
  exact hrun.mono (by omega)

/-! ### A step begins (R145, R146) -/

theorem begun_currentStep {x : ProgSlot} {idx : Nat} (hidx : 1 ≤ idx) (hst : x.steps[idx - 1]? = some st) :
    (x.begun idx st).currentStep = some st := by
  simp only [ProgSlot.currentStep, ProgSlot.begun, reduceCtorEq, false_or]
  rw [if_neg (by omega), hst]

theorem State.begins.runs {idx : Nat} (h : s.begins t i idx) : s.runsTo [.begin_ i idx] 2 t := by
  obtain ⟨st, o, u, hidx, hst, ho, htakes, rfl, h⟩ := h
  have hf := (beginFailure_eq_none_iff ho).2 htakes
  rcases h with ⟨h, hh, rfl⟩ | ⟨hfree, htake⟩
  · have hwaits : runTask (.begin_ i idx) s = _ := beginStep_waits hst hf hh
    exact (State.runsTo.last hwaits).mono (by decide)
  · have htakes : runTask (.begin_ i idx) s = _ := beginStep_takes hst hf (by rw [hfree])
    have hrests : runTask (.take st.channel i) (s.setSlot i ((s.slot i).begun idx st)) = (t, []) :=
      takeClaim_rests (by rw [State.slot_setSlot_same]; exact begun_currentStep hidx hst)
        (by rw [State.setSlot_claim, hfree]; rfl) htake
    exact .task htakes (.last hrests)

/-! ### A slot goes on (R149, R153, R154) -/

theorem State.endsPass.eq (h : s.endsPass t i) : endPass i s = t := by
  obtain ⟨x, y, rfl, rfl, ⟨h₁, h₂, rfl⟩ | ⟨h₁, h₂, rfl⟩ | ⟨h₁, h₂, rfl⟩⟩ := h
  · exact endPass_done h₁ h₂
  · exact endPass_gap h₁ h₂
  · exact endPass_waits h₁ h₂

theorem goOn_more (h : (s.slot i).curStep < (s.slot i).steps.length) :
    runTask (.goOn i) s = (s, [.begin_ i ((s.slot i).curStep + 1)]) := if_pos h

theorem goOn_last (h : (s.slot i).steps.length ≤ (s.slot i).curStep) : runTask (.goOn i) s = (endPass i s, []) :=
  if_neg (Nat.not_lt.2 h)

theorem State.goesOn.runs (h : s.goesOn t i) : s.runsTo [.goOn i] 3 t := by
  rcases h with ⟨hmore, hbegins⟩ | ⟨hlast, hends⟩
  · exact .task (goOn_more hmore) hbegins.runs
  · exact (State.runsTo.last ((goOn_last hlast).trans (by rw [hends.eq]))).mono (by decide)

theorem State.settles.runs (h : s.settles t i why) : s.runsTo [.settle i why] 4 t := by
  rcases h with ⟨hc, rfl⟩ | ⟨hc, hgoes⟩
  · have hends : runTask (.settle i why) s = (s.runFaulted i why, []) := settleFailure_ends hc
    exact (State.runsTo.last hends).mono (by decide)
  · have hgo : runTask (.settle i why) s = (s.setSlot i ((s.slot i).failed why), [.goOn i]) := settleFailure_goesOn hc
    exact .task hgo hgoes.runs

/-! ### The end of a step (R149, R153) -/

section
variable {h : Holder}

/-- A step that fails as the holder of its claim. -/
theorem fail_holder_runs (hst : (s.slot i).currentStep = some st) (hh : (s.claim st.channel).holder = some h) (hi : h.slot = i)
    (hpass : State.PassesOn st.channel (s.setClaim st.channel { s.claim st.channel with holder := none }) v)
    (hsettle : v.settles t i why) : s.runsTo [.fail i why] 23 t := by
  have hfail : runTask (.fail i why) s =
      (s.setClaim st.channel { s.claim st.channel with holder := none }, [.passOn st.channel] ++ [.settle i why]) := by
    rw [runTask, failStep, releaseStep_holder hst hh hi]
  exact .task hfail (hpass.runs.append hsettle.runs)

/-- A step that fails without the claim. -/
theorem fail_waiter_runs (hst : (s.slot i).currentStep = some st)
    (hh : ∀ h : Holder, (s.claim st.channel).holder = some h → h.slot ≠ i)
    (hsettle : (s.setClaim st.channel { s.claim st.channel with
      waiters := (s.claim st.channel).waiters.filter fun x => x ≠ i }).settles t i why) : s.runsTo [.fail i why] 5 t := by
  have hfail : runTask (.fail i why) s = (s.setClaim st.channel { s.claim st.channel with
      waiters := (s.claim st.channel).waiters.filter fun x => x ≠ i }, [] ++ [.settle i why]) := by
    rw [runTask, failStep, releaseStep_waiter hst hh]
  exact .task hfail hsettle.runs

/-- A step that passes holds its claim. -/
theorem pass_runs (hst : (s.slot i).currentStep = some st) (hh : (s.claim st.channel).holder = some h) (hi : h.slot = i)
    (hpass : State.PassesOn st.channel ((s.setClaim st.channel { s.claim st.channel with holder := none }).setSlot i
      ((s.slot i).resulted .passed)) v) (hgoes : v.goesOn t i) : s.runsTo [.pass i] 22 t := by
  have hrec : (recordResult i .passed s).slot i = { s.slot i with
      results := (s.slot i).results.set ((s.slot i).curStep - 1) .passed, reach := none, hold := none } :=
    State.slot_setSlot_same ..
  have hrelease : releaseStep i (recordResult i .passed s) = ((recordResult i .passed s).setClaim st.channel
      { s.claim st.channel with holder := none }, [.passOn st.channel]) :=
    releaseStep_holder (by rw [hrec]; exact hst) hh hi
  have hpassed : runTask (.pass i) s = ((s.setClaim st.channel { s.claim st.channel with holder := none }).setSlot i
      ((s.slot i).resulted .passed), [.passOn st.channel] ++ [.goOn i]) := by
    rw [runTask, passStep, hrelease]
    simp only [State.modifySlot, State.setClaim_slot, hrec, Prod.mk.injEq, and_true]
    rw [recordResult, State.modifySlot]
    exact State.setSlot_setSlot (s.setClaim st.channel { s.claim st.channel with holder := none }) i _ _
  exact .task hpassed (hpass.runs.append hgoes.runs)

end

end Sys2Proof.Machine
end

section
/-! The steps on an outlet fail (R151 to R153), and the timers of the duty programs expire (R149, R150, R154). -/

namespace Sys2Proof.Machine

variable {s t u v : State} {c : Channel} {i j : SlotId} {why : FailReason} {st : Step} {h : Holder}

/-! ### The steps on an outlet fail in turn (R151, R152) -/

theorem passesOn_unclaimed (s : State) (c : Channel) :
    State.PassesOn c (s.setClaim c { holder := none, waiters := [] }) (s.setClaim c { holder := none, waiters := [] }) :=
  .free _ (State.claim_setClaim_same ..)

/-- A claim that nobody waits for is left free. -/
theorem passesOn_left (hh : s.claim c = { holder := some h, waiters := [] }) :
    State.PassesOn c (s.setClaim c { s.claim c with holder := none }) (s.setClaim c { holder := none, waiters := [] }) := by
  rw [hh]
  exact passesOn_unclaimed ..

/-- A holder that nobody waits behind is the one step on its outlet. -/
theorem failStepsOn_holder (hh : (s.claim c).holder = some h) (hw : (s.claim c).waiters = []) :
    failStepsOn c why s = runDuty [.fail h.slot why] s := by
  simp [failStepsOn, stepsOn, hh, hw]

theorem State.setClaim_raise (k : NoticeKind) (s : State) (c : Channel) (x : Claim) :
    (raise k s).setClaim c x = raise k (s.setClaim c x) := by
  have hp : (s.setClaim c x).isPending k = s.isPending k := rfl
  have hm : (s.setClaim c x).isMasked k = s.isMasked k := rfl
  unfold raise
  rw [hp, hm]
  cases s.isPending k
  · cases s.isMasked k <;> rfl
  · rfl

theorem State.runFaulted_setClaim (s : State) (i : SlotId) (why : FailReason) (c : Channel) (x : Claim) :
    (s.runFaulted i why).setClaim c x = (s.setClaim c x).runFaulted i why :=
  State.setClaim_raise ..

/-- The waiting steps leave the queue of a claim that is in the end left free: their runs end in turn. -/
theorem foldl_failWaiter_setClaim (l : List SlotId) (s : State) (c : Channel) (why : FailReason) (x : Claim) :
    (l.foldl (failWaiter c why) s).setClaim c x = l.foldl (fun u j => u.runFaulted j why) (s.setClaim c x) := by
  induction l generalizing s with
  | nil => rfl
  | cons i l ih =>
    rw [List.foldl_cons, ih, List.foldl_cons, failWaiter, State.runFaulted_setClaim, State.setClaim_setClaim]

/-- Where no program of a claimed outlet goes on, every run on it ends, the waiters' from tail to head and then the holder's. -/
theorem failStepsOn_all (hh : (s.claim c).holder = some h) (hn : (s.claim c).waiters.Nodup) (hw : h.slot ∉ (s.claim c).waiters)
    (hends : ∀ j ∈ h.slot :: (s.claim c).waiters, s.endsOn c j) : failStepsOn c why s =
      ((s.claim c).waiters.reverse ++ [h.slot]).foldl (fun u j => u.runFaulted j why)
        (s.setClaim c { holder := none, waiters := [] }) := by
  have hrev := List.nodup_reverse.2 hn
  have hlen : (s.claim c).waiters.reverse.length ≤ 4 := hrev.length_le_card
  have hwaiters : s.runsTo ((s.claim c).waiters.reverse.map fun i => .fail i why) (2 * (s.claim c).waiters.reverse.length)
      ((s.claim c).waiters.reverse.foldl (failWaiter c why) s) :=
    ⟨_, le_rfl, fun n us => runTasks_failWaiters hrev (fun i hi => by
      have hi := List.mem_reverse.1 hi
      exact ⟨hends i (List.mem_cons_of_mem _ hi), fun e => hw (e ▸ hi)⟩) hh⟩
  obtain ⟨hslot, hclaim⟩ := foldl_failWaiter (c := c) (why := why) hrev s
  have hholder : ((s.claim c).waiters.reverse.foldl (failWaiter c why) s).endsOn c h.slot := by
    refine (State.endsOn_congr ?_).2 (hends h.slot (by simp))
    rw [hslot, if_neg (by simpa using hw)]
  have hlast : ((s.claim c).waiters.reverse.foldl (failWaiter c why) s).runsTo [.fail h.slot why] 3
      ((((s.claim c).waiters.reverse.foldl (failWaiter c why) s).setClaim c { holder := none, waiters := [] }).runFaulted
        h.slot why) :=
    ⟨3, le_rfl, fun n us => runTasks_failHolder hholder (by rw [hclaim, if_pos rfl]; simp [hh])⟩
  have hsteps : (stepsOn c s).map (fun i => DutyTask.fail i why) =
      (s.claim c).waiters.reverse.map (fun i => .fail i why) ++ [.fail h.slot why] := by
    simp [stepsOn, hh]
  rw [failStepsOn, hsteps, (hwaiters.append hlast).runDuty (by omega), foldl_failWaiter_setClaim, List.foldl_append]
  rfl

/-- Settles O27: each chain of tasks runs to its end within the bound of the event. -/
theorem barFailsHoldingStep : Obligations.BarFailsHoldingStep := by
  unfold Obligations.BarFailsHoldingStep
  refine ⟨?_, ?_, ?_, ?_⟩
  · rintro s c h st hh hw hst rfl hc
    have hclaim : s.claim st.channel = { holder := some h, waiters := [] } := by rw [← hh, ← hw]
    rw [failStepsOn_holder hh hw]
    exact (fail_holder_runs hst hh rfl (passesOn_left hclaim) (.inl ⟨hc, rfl⟩)).runDuty (by decide)
  · intro s c hh hw why
    refine failStepsOn_free ?_ why
    rw [← hh, ← hw]
  · intro s c h why hh hn hw hends
    exact failStepsOn_all hh hn hw hends
  · intro s i st why hst
    refine ⟨fun h u t hh hi _ hpass hsettle => ?_, fun t hh hsettle => (fail_waiter_runs hst hh hsettle).runDuty (by decide)⟩
    have hrun := (fail_holder_runs hst hh hi hpass hsettle).runDuty (by decide)
    refine ⟨hrun, fun hw => ?_⟩
    rw [failStepsOn_holder hh hw, hi, hrun]

/-! ### Timers (R149, R150, R154) -/

/-- The end of the pass of a slot just written (R154). -/
theorem endsPass_setSlot (s : State) (i : SlotId) {x y : ProgSlot}
    (hy : y = { x with phase := .none, reach := none, hold := none, curStep := 0,
                       loopsLeft := if x.loops = 0 then x.loopsLeft else x.loopsLeft - 1 }) :
    (x.loops ≠ 0 → x.loopsLeft = 1 → (s.setSlot i x).endsPass (raise .program (s.setSlot i { y with state := .done })) i) ∧
    ((x.loops = 0 ∨ 2 ≤ x.loopsLeft) → x.intervalMin = 0 → (s.setSlot i x).endsPass (s.setSlot i { y with gap := some 1 }) i) ∧
    ((x.loops = 0 ∨ 2 ≤ x.loopsLeft) → x.intervalMin ≠ 0 → (s.setSlot i x).endsPass (s.setSlot i { y with
      state := .waiting, waitMinute := some ((x.loopStart + x.intervalMin) % 10080) }) i) := by
  have hleft : x.loops = 0 ∨ 2 ≤ x.loopsLeft → x.loops = 0 ∨ y.loopsLeft ≠ 0 := by
    rintro (h | h)
    · exact .inl h
    · rw [hy]
      simp only
      split
      · exact .inl ‹_›
      · exact .inr (by omega)
  refine ⟨fun h₁ h₂ => ?_, fun h₁ h₂ => ?_, fun h₁ h₂ => ?_⟩
  · refine ⟨x, y, (State.slot_setSlot_same ..).symm, hy, .inl ⟨h₁, ?_, by rw [State.setSlot_setSlot]⟩⟩
    rw [hy]
    simp only [if_neg h₁]
    omega
  · exact ⟨x, y, (State.slot_setSlot_same ..).symm, hy, .inr (.inl ⟨hleft h₁, h₂, by rw [State.setSlot_setSlot]⟩)⟩
  · exact ⟨x, y, (State.slot_setSlot_same ..).symm, hy, .inr (.inr ⟨hleft h₁, h₂, by rw [State.setSlot_setSlot]⟩)⟩

theorem goesOn_last {x : ProgSlot} (hx : x.curStep = x.steps.length) (h : (s.setSlot i x).endsPass t i) :
    (s.setSlot i x).goesOn t i :=
  .inr ⟨by rw [State.slot_setSlot_same, hx], h⟩

section
variable (hr : s.rstLow = false)
include hr

theorem exec_reachTimer : exec (.reachTimerExpiry i) s =
    .next (if (s.slot i).reach = some 0 then runDuty [.fail i .timeout] s else s) := by
  rw [← running_next (fun s => if (s.slot i).reach = some 0 then runDuty [.fail i .timeout] s else s) s hr]
  simp only [exec, execReachTimerExpiry, running, reachTimerExpiry, timerDue_iff]

theorem exec_holdTimer : exec (.holdTimerExpiry i) s =
    .next (if (s.slot i).hold = some 0 then runDuty [.pass i] s else s) := by
  rw [← running_next (fun s => if (s.slot i).hold = some 0 then runDuty [.pass i] s else s) s hr]
  simp only [exec, execHoldTimerExpiry, running, holdTimerExpiry, timerDue_iff]

theorem exec_gapTimer : exec (.gapTimerExpiryProg i) s =
    .next (if (s.slot i).gap = some 0 then beginPass i s.clock.minute s else s) := by
  rw [← running_next (fun s => if (s.slot i).gap = some 0 then beginPass i s.clock.minute s else s) s hr]
  simp only [exec, execGapTimerExpiryProg, running, gapTimerExpiryProg, timerDue_iff]

theorem exec_reachTimer_runs {n : Nat} (hd : (s.slot i).reach = some 0) (h : s.runsTo [.fail i .timeout] n t) (hn : n ≤ 64) :
    exec (.reachTimerExpiry i) s = .next t := by
  rw [exec_reachTimer hr, if_pos hd, h.runDuty hn]

theorem exec_holdTimer_runs {n : Nat} (hd : (s.slot i).hold = some 0) (h : s.runsTo [.pass i] n t) (hn : n ≤ 64) :
    exec (.holdTimerExpiry i) s = .next t := by
  rw [exec_holdTimer hr, if_pos hd, h.runDuty hn]

end

/-- Settles O52: a due timer runs the chain of tasks of its rule, which ends as the rule says. -/
theorem programTimersExpire : Obligations.ProgramTimersExpire := by
  unfold Obligations.ProgramTimersExpire
  rintro s i x hr rfl
  refine ⟨fun h => by rw [exec_reachTimer hr, if_neg h], fun h => by rw [exec_holdTimer hr, if_neg h],
    fun h => by rw [exec_gapTimer hr, if_neg h], fun h => by rw [exec_gapTimer hr, if_pos h],
    fun h => by rw [exec_reachTimer hr, if_pos h], fun h => by rw [exec_holdTimer hr, if_pos h], ?_, ?_, ?_⟩
  · rintro st h u v t hst hh hi _ rfl
    exact ⟨fun hd hpass hsettle => exec_reachTimer_runs hr hd (fail_holder_runs hst hh hi hpass hsettle) (by decide),
      fun hd hpass hgoes => exec_holdTimer_runs hr hd (pass_runs hst hh hi hpass hgoes) (by decide)⟩
  · intro st t hst hd hh hsettle
    exact exec_reachTimer_runs hr hd (fail_waiter_runs hst hh hsettle) (by decide)
  · intro st h hst hclaim hi
    have hh : (s.claim st.channel).holder = some h := by rw [hclaim]
    refine ⟨fun hd hc => exec_reachTimer_runs hr hd
      (fail_holder_runs hst hh hi (passesOn_left hclaim) (.inl ⟨hc, rfl⟩)) (by decide), ?_⟩
    rintro y hd hlast rfl
    have hpass : State.PassesOn st.channel ((s.setClaim st.channel { s.claim st.channel with holder := none }).setSlot i
        ((s.slot i).resulted .passed)) ((s.setClaim st.channel { holder := none, waiters := [] }).setSlot i
        ((s.slot i).resulted .passed)) := by
      rw [hclaim]
      exact .free _ (State.claim_setClaim_same ..)
    have ends {t : State} (ht : ((s.setClaim st.channel { holder := none, waiters := [] }).setSlot i
        ((s.slot i).resulted .passed)).endsPass t i) : exec (.holdTimerExpiry i) s = .next t :=
      exec_holdTimer_runs hr hd (pass_runs hst hh hi hpass (goesOn_last hlast ht)) (by decide)
    obtain ⟨hdone, hgap, hwaits⟩ := endsPass_setSlot (s.setClaim st.channel { holder := none, waiters := [] }) i
      (x := (s.slot i).resulted .passed) rfl
    exact ⟨fun h₁ h₂ => ends (hdone h₁ h₂), fun h₁ h₂ => ends (hgap h₁ h₂), fun h₁ h₂ => ends (hwaits h₁ h₂)⟩

end Sys2Proof.Machine
end

section
/-! PROG-START and PROG-STOP (R141, R143), and the beginning of a pass (R145, R146). -/

namespace Sys2Proof.Machine

variable {s t u v : State} {c : Channel} {i j : SlotId} {why : FailReason} {st : Step} {p : List Byte} {m : Nat}

/-! ### PROG-START (R141) -/

theorem progStart_badSlot (h : 4 ≤ readByte p 0) : progStart p s = (.refuse .range, s) := by
  simp [progStart, slotOf_none h]

theorem progStop_badSlot (h : 4 ≤ readByte p 0) : progStop p s = (.refuse .range, s) := by
  simp [progStop, slotOf_none h]

theorem SlotState.startable_iff {x : SlotState} : x.startable = true ↔ x ≠ .empty ∧ x ≠ .waiting ∧ x ≠ .running := by
  cases x <;> simp [SlotState.startable]

section
variable (hi : i.val = readByte p 0)
include hi

theorem progStart_busy (h : (s.slot i).state = .empty ∨ (s.slot i).state = .waiting ∨ (s.slot i).state = .running) :
    progStart p s = (.refuse .state, s) := by
  have hs : (s.slot i).state.startable = false := by rcases h with h | h | h <;> rw [h] <;> rfl
  simp [progStart, slotOf_val hi, hs]

theorem progStop_idle (h₁ : (s.slot i).state ≠ .waiting) (h₂ : (s.slot i).state ≠ .running) :
    progStop p s = (.refuse .state, s) := by
  simp [progStop, slotOf_val hi, h₁, h₂]

theorem progStop_stops (h : (s.slot i).state = .waiting ∨ (s.slot i).state = .running) :
    progStop p s = (⟨.done, []⟩, stopRun i s) := by
  simp [progStop, slotOf_val hi, h]

variable (hs : (s.slot i).state.startable = true)
include hs

theorem progStart_clockUnset (hm : (s.slot i).start = some m) (hc : s.clock.isSet = false) :
    progStart p s = (.refuse .clockUnset, s) := by
  simp [progStart, slotOf_val hi, hs, hm, hc]

theorem progStart_waits (hm : (s.slot i).start = some m) (hc : s.clock.isSet = true) : progStart p s =
    (⟨.done, []⟩, s.setSlot i { freshRun (s.slot i) with state := .waiting, waitMinute := some m }) := by
  simp [progStart, slotOf_val hi, hs, hm, hc, startRun, State.modifySlot]

theorem progStart_begins (hm : (s.slot i).start = none) : progStart p s =
    (⟨.done, []⟩, beginPass i s.clock.minute (s.setSlot i (freshRun (s.slot i)))) := by
  simp [progStart, slotOf_val hi, hs, hm, startRun, State.modifySlot]

end

/-! ### PROG-STOP (R143) -/

theorem stopRun_idle (hst : (s.slot i).currentStep = none) : stopRun i s = s.setSlot i (stoppedSlot (s.slot i)) := by
  simp [stopRun, releaseStep_idle hst, runDuty, State.modifySlot]

theorem stopRun_waiter (hst : (s.slot i).currentStep = some st)
    (hh : ∀ h : Holder, (s.claim st.channel).holder = some h → h.slot ≠ i) : stopRun i s =
      (s.setClaim st.channel { s.claim st.channel with
        waiters := (s.claim st.channel).waiters.filter fun x => x ≠ i }).setSlot i (stoppedSlot (s.slot i)) := by
  simp [stopRun, releaseStep_waiter hst hh, runDuty, State.modifySlot]

theorem stopRun_holder {h : Holder} (hst : (s.slot i).currentStep = some st) (hh : (s.claim st.channel).holder = some h)
    (hi : h.slot = i) (hpass : State.PassesOn st.channel ((s.setClaim st.channel { s.claim st.channel with
      holder := none }).setSlot i (stoppedSlot (s.slot i))) t) : stopRun i s = t := by
  rw [stopRun, releaseStep_holder hst hh hi]
  exact hpass.runs.runDuty (by decide)

/-! ### The first step of a pass (R145, R146) -/

theorem State.begins.beginPass_eq (h : (s.setSlot i ((s.slot i).passBegun m)).begins t i 1) : beginPass i m s = t :=
  h.runs.runDuty (by decide)

/-- A slot at the head of a claim that nobody else has. -/
theorem claimTaken_free (hc : s.claim c = { holder := none, waiters := [] }) : (s.claimTaken c i st).claim c =
    { holder := some { slot := i, step := (s.slot i).curStep, kw := claimDemand c st s }, waiters := [] } := by
  rw [State.claimTaken, State.claim_setClaim_same, hc]
  rfl

/-- A claim taken and given up again is as it was. -/
theorem claimTaken_left (hc : s.claim c = { holder := none, waiters := [] }) :
    (s.claimTaken c i st).setClaim c { holder := none, waiters := [] } = s := by
  rw [State.claimTaken, State.setClaim_setClaim, ← hc, State.setClaim_claim]

/-- A step that fails without a place at its claim. -/
theorem fail_placeless_runs (hst : (s.slot i).currentStep = some st)
    (hh : ∀ h : Holder, (s.claim st.channel).holder = some h → h.slot ≠ i) (hw : i ∉ (s.claim st.channel).waiters)
    (hsettle : s.settles t i why) : s.runsTo [.fail i why] 5 t := by
  refine fail_waiter_runs hst hh ?_
  have hsame : (s.claim st.channel).waiters.filter (fun x => x ≠ i) = (s.claim st.channel).waiters :=
    List.filter_eq_self.2 fun x hx => by simpa using fun e : x = i => hw (e ▸ hx)
  rw [hsame, State.setClaim_claim]
  exact hsettle

/-- A step that fails on taking a free claim. -/
theorem take_fails_runs (hst : (s.slot i).currentStep = some st) (hc : s.claim st.channel = { holder := none, waiters := [] })
    (ht : st.targetTemp ≠ 0) (hf : (s.sensor (branchInput st.channel)).faulted = true) (hsettle : s.settles t i .sensor) :
    s.runsTo [.take st.channel i] 24 t := by
  have htakes : runTask (.take st.channel i) s = (s.claimTaken st.channel i st, [.fail i .sensor]) := takeClaim_fails hst ht hf
  have hpass := passesOn_left (claimTaken_free (i := i) (st := st) hc)
  rw [claimTaken_left hc] at hpass
  exact .task htakes (fail_holder_runs (s := s.claimTaken st.channel i st) hst (congrArg Claim.holder (claimTaken_free hc)) rfl
    hpass hsettle)

theorem State.setClaim_setSlot (s : State) (i : SlotId) (x : ProgSlot) (c : Channel) (y : Claim) :
    (s.setSlot i x).setClaim c y = (s.setClaim c y).setSlot i x := rfl

/-- The slot once its step holds the claim and needs no temperature (R146). -/
def ProgSlot.holdsFor (x : ProgSlot) (st : Step) : ProgSlot :=
  { x with phase := .holding, reach := none, hold := some (st.holdMin * 60) }

theorem ProgSlot.holdsFor_resulted (x : ProgSlot) (st : Step) (r : StepResult) : (x.holdsFor st).resulted r = x.resulted r := rfl

theorem ProgSlot.holdsFor_currentStep {x : ProgSlot} (hst : x.currentStep = some st) : (x.holdsFor st).currentStep = some st := by
  have hphase : x.phase ≠ .none := fun hp => by simp [ProgSlot.currentStep, hp] at hst
  simpa [ProgSlot.currentStep, ProgSlot.holdsFor, hphase] using hst

/-- A step that passes on taking a free claim (R149). -/
theorem take_passes_runs (hst : (s.slot i).currentStep = some st) (hc : s.claim st.channel = { holder := none, waiters := [] })
    (ht : st.targetTemp = 0) (hhold : st.holdMin = 0) (hgoes : (s.setSlot i ((s.slot i).resulted .passed)).goesOn t i) :
    s.runsTo [.take st.channel i] 23 t := by
  have htakes : runTask (.take st.channel i) s =
      ((s.claimTaken st.channel i st).setSlot i ((s.slot i).holdsFor st), [.pass i]) :=
    (takeClaim_holds hst ht).trans (by rw [if_pos hhold]; rfl)
  have hclaim : ((s.claimTaken st.channel i st).setSlot i ((s.slot i).holdsFor st)).claim st.channel = _ :=
    (State.setSlot_claim ..).trans (claimTaken_free hc)
  have hslot : ((s.claimTaken st.channel i st).setSlot i ((s.slot i).holdsFor st)).slot i = (s.slot i).holdsFor st :=
    State.slot_setSlot_same ..
  have hleft : (((s.claimTaken st.channel i st).setSlot i ((s.slot i).holdsFor st)).setClaim st.channel
      { holder := none, waiters := [] }).setSlot i (((s.slot i).holdsFor st).resulted .passed) =
      s.setSlot i ((s.slot i).resulted .passed) := by
    rw [State.setClaim_setSlot, claimTaken_left hc, State.setSlot_setSlot, ProgSlot.holdsFor_resulted]
  refine .task htakes (pass_runs (by rw [hslot]; exact ProgSlot.holdsFor_currentStep hst) (congrArg Claim.holder hclaim) rfl
    ?_ hgoes)
  rw [hclaim, hslot, hleft]
  exact .free _ hc

/-! ### The claim on the first step's outlet -/

section
variable {idx : Nat} (hst : (s.slot i).steps[idx - 1]? = some st) (hidx : 1 ≤ idx)
include hst hidx

theorem begun_setSlot_currentStep : ((s.setSlot i ((s.slot i).begun idx st)).slot i).currentStep = some st := by
  rw [State.slot_setSlot_same]
  exact begun_currentStep hidx hst

/-- A step that fails in the event of its beginning (R145, R146). -/
theorem begin_fails_runs (hfails : s.failsBeginning st why)
    (hh : ∀ h : Holder, (s.claim st.channel).holder = some h → h.slot ≠ i) (hw : i ∉ (s.claim st.channel).waiters)
    (hsettle : (s.setSlot i ((s.slot i).begun idx st)).settles t i why) : s.runsTo [.begin_ i idx] 25 t := by
  have hcurrent := begun_setSlot_currentStep hst hidx
  have failed (hf : beginFailure st.channel s = some why) : s.runsTo [.begin_ i idx] 25 t := by
    have hbegins : runTask (.begin_ i idx) s = _ := beginStep_fails hst hf
    exact (State.runsTo.task hbegins (fail_placeless_runs hcurrent hh hw hsettle)).mono (by decide)
  rcases hfails with ⟨ho, rfl⟩ | ⟨o, ho, ⟨hfeeder, rfl⟩ | ⟨hfeeder, hbars, rfl⟩ | ⟨hfeeder, hp, ha, hstate⟩⟩
  · exact failed (by simp [beginFailure, ho])
  · exact failed (by simp [beginFailure, ho, Option.isSome_iff_ne_none.2 hfeeder])
  · exact failed (by simp [beginFailure, ho, hfeeder, hbars])
  · rcases hstate with ⟨hs, rfl⟩ | ⟨hs, rfl⟩ | ⟨hs, hs', hc, ht, hf, rfl⟩
    · exact failed (by simp [beginFailure, ho, hfeeder, hp, ha, hs])
    · exact failed (by simp [beginFailure, ho, hfeeder, hp, ha, hs])
    · have hbegins : runTask (.begin_ i idx) s = _ :=
        beginStep_takes hst ((beginFailure_eq_none_iff ho).2 ⟨hfeeder, hp, ha, hs, hs'⟩) (by rw [hc])
      exact .task hbegins (take_fails_runs hcurrent hc ht hf hsettle)

/-- A step that passes in the event of its beginning (R146, R149). -/
theorem begin_passes_runs {o : Outlet} (ho : s.outlet st.channel = some o) (htakes : o.takesSteps)
    (hc : s.claim st.channel = { holder := none, waiters := [] }) (ht : st.targetTemp = 0) (hhold : st.holdMin = 0)
    (hgoes : (s.setSlot i (((s.slot i).begun idx st).resulted .passed)).goesOn t i) : s.runsTo [.begin_ i idx] 24 t := by
  have hbegins : runTask (.begin_ i idx) s = _ := beginStep_takes hst ((beginFailure_eq_none_iff ho).2 htakes) (by rw [hc])
  refine .task hbegins (take_passes_runs (begun_setSlot_currentStep hst hidx) hc ht hhold ?_)
  rw [State.slot_setSlot_same, State.setSlot_setSlot]
  exact hgoes

end

/-! ### The obligation -/

theorem freshRun_eq (x : ProgSlot) : freshRun x = { x with
    loopsLeft := x.loops, faultsSeen := false, dips := 0, results := List.replicate x.steps.length .notRun } := by
  rw [freshRun, map_notRun]

theorem passBegun_eq (x : ProgSlot) (m : Nat) : x.passBegun m = { x with
    state := .running, waitMinute := none, loopStart := m, gap := none,
    results := List.replicate x.steps.length .notRun } := by
  rw [ProgSlot.passBegun, map_notRun]

/-- Settles O51: the checks of each request in their order, and the chain of tasks that a first step or a stop sets off. -/
theorem programStartsAndStops : Obligations.ProgramStartsAndStops := by
  unfold Obligations.ProgramStartsAndStops
  refine ⟨fun s f rest ht hl => ?_, fun s t u i m st y hst hy hu => ?_, fun s i m st o hst ho hfeeder hp ha hf hh hc htemp hs => ?_⟩
  · have starts {a : Answer} {t : State} (hk : f.kind = 0x0F) (h : progStart f.payload (s.dequeue rest) = (a, t)) :
        exec .progStart s = .next (t.answered f a) :=
      request_answers ht (requestRow_of_kind hk (by decide)) (by simp [fits, hl]) h
    have stops {a : Answer} {t : State} (hk : f.kind = 0x10) (h : progStop f.payload (s.dequeue rest) = (a, t)) :
        exec .progStop s = .next (t.answered f a) :=
      request_answers ht (requestRow_of_kind hk (by decide)) (by simp [fits, hl]) h
    refine ⟨fun h => ⟨fun hk => starts hk (progStart_badSlot h), fun hk => stops hk (progStop_badSlot h)⟩, ?_⟩
    rintro i x fresh hi rfl rfl
    rw [← freshRun_eq]
    refine ⟨fun hk => ⟨fun h => starts hk (progStart_busy hi h), fun h₁ h₂ h₃ => ?_⟩,
      fun hk => ⟨fun h₁ h₂ => stops hk (progStop_idle hi h₁ h₂), ?_⟩⟩
    · have hs : ((s.dequeue rest).slot i).state.startable = true := SlotState.startable_iff.2 ⟨h₁, h₂, h₃⟩
      exact ⟨fun m hm hc => starts hk (progStart_clockUnset hi hs hm hc),
        fun m hm hc => starts hk (progStart_waits hi hs hm hc), fun hm => starts hk (progStart_begins hi hs hm)⟩
    · rintro y hrun rfl
      have stopped {t : State} (h : stopRun i (s.dequeue rest) = t) : exec .progStop s = .next (t.answered f ⟨.done, []⟩) :=
        h ▸ stops hk (progStop_stops hi hrun)
      refine ⟨fun hst => stopped (stopRun_idle hst), fun st hst => ⟨fun hh => stopped (stopRun_waiter hst hh), ?_, ?_⟩⟩
      · rintro ⟨h, hh, hi'⟩ hw
        have hclaim : s.claim st.channel = { holder := some h, waiters := [] } := by rw [← hh, ← hw]
        refine stopped (stopRun_holder hst hh hi' ?_)
        rw [State.dequeue_claim, hclaim]
        exact .free _ (State.claim_setClaim_same ..)
      · rintro t ⟨h, hh, hi'⟩ - hpass
        exact stopped (stopRun_holder hst hh hi' hpass)
  · obtain rfl : y = (s.slot i).passBegun m := hy.trans (passBegun_eq ..).symm
    subst hu
    have hslot : (s.setSlot i ((s.slot i).passBegun m)).slot i = (s.slot i).passBegun m := State.slot_setSlot_same ..
    have hfirst : ((s.setSlot i ((s.slot i).passBegun m)).slot i).steps[1 - 1]? = some st := by rw [hslot]; exact hst
    refine ⟨fun h => h.beginPass_eq, fun why hfails hh hw hsettle => ?_, fun o ho htakes hc htemp hhold hgoes => ?_⟩
    · refine (begin_fails_runs hfirst le_rfl hfails hh hw ?_).runDuty (by decide)
      rw [hslot, State.setSlot_setSlot]
      exact hsettle
    · refine (begin_passes_runs hfirst le_rfl ho htakes hc htemp hhold ?_).runDuty (by decide)
      rw [hslot, State.setSlot_setSlot]
      exact hgoes
  · have hslot : (s.setSlot i ((s.slot i).passBegun m)).slot i = (s.slot i).passBegun m := State.slot_setSlot_same ..
    refine State.begins.beginPass_eq ⟨st, o, _, le_rfl, by rw [hslot]; exact hst, ho, ⟨hfeeder, hp, ha, hf, hh⟩, rfl,
      .inr ⟨hc, o, _, ho, rfl, .inl ⟨htemp, hs, ?_⟩⟩⟩
    simp only [State.setClaim_setSlot, State.setSlot_setSlot, State.slot_setSlot_same, passBegun_eq]
    rfl

end Sys2Proof.Machine
end

section
/-! Translation of an outlet address (R167 to R170) and RANGE_SET (R171, R172): at most one range hits an address, and a search for the
first range is answered by the least index. -/

namespace Sys2Proof.Machine

/-! ### Translation (R167 to R170) -/

theorem channelOf_val (c : Channel) : channelOf c.val = some c := dif_pos c.isLt

theorem channelOf_eq_none {n : Nat} (h : 48 ≤ n) : channelOf n = none := dif_neg (by omega)

theorem mapLookup_val (x : Translator) (k : Fin 128) : mapLookup x k.val =
    if (x.map.get k).valid = true then .ok (x.map.get k).channel else .error .unmapped := dif_pos k.isLt

theorem mapLookup_past (x : Translator) {n : Nat} (h : 128 ≤ n) : mapLookup x n = .error .unmapped := dif_neg (by omega)

theorem translate_channelForm (x : Translator) (c : Channel) : translate x (32768 + c.val) = .ok c := by
  rw [translate, if_pos (by omega), Nat.add_sub_cancel_left, channelOf_val]

theorem translate_channelForm_past (x : Translator) {addr : Nat} (h : 32768 + 48 ≤ addr) :
    translate x addr = .error .noOutlet := by
  rw [translate, if_pos (by omega), channelOf_eq_none (by omega)]

theorem translate_branchForm (x : Translator) {addr : Nat} (h : addr < 32768) : translate x addr = translateBranch x addr :=
  if_neg (by omega)

theorem mem_toList_iff_get {α : Type} {n : Nat} (t : Table α n) (x : α) : x ∈ t.toList ↔ ∃ i : Fin n, t.get i = x := by
  rw [List.mem_iff_get]
  constructor
  · rintro ⟨i, rfl⟩
    exact ⟨i.cast t.size_eq, rfl⟩
  · rintro ⟨i, rfl⟩
    exact ⟨i.cast t.size_eq.symm, rfl⟩

theorem translateBranch_of_no_hit {x : Translator} {a : Nat} (h : ∀ i : Fin 4, (x.ranges.get i).hits a = false) :
    translateBranch x a = .error .noOutlet := by
  have hnone : x.ranges.toList.find? (fun r => r.hits a) = none := by
    refine List.find?_eq_none.2 fun r hr => ?_
    obtain ⟨i, rfl⟩ := (mem_toList_iff_get ..).1 hr
    simp [h i]
  rw [translateBranch, hnone]

/-- Ranges that are apart hit an address at one index. -/
theorem State.rangesApart.hits_unique {s : State} (h : s.rangesApart) {i j : Fin 4} {a : Nat}
    (hi : (s.xlat.ranges.get i).hits a = true) (hj : (s.xlat.ranges.get j).hits a = true) : i = j := by
  obtain ⟨-, hapart⟩ := h
  by_contra hij
  exact hapart i j hij ((BranchRange.hits_iff ..).1 hi).1 ((BranchRange.hits_iff ..).1 hj).1 a ⟨hi, hj⟩

theorem State.rangesApart.find?_hits {s : State} (h : s.rangesApart) {i : Fin 4} {a : Nat}
    (hi : (s.xlat.ranges.get i).hits a = true) :
    s.xlat.ranges.toList.find? (fun r => r.hits a) = some (s.xlat.ranges.get i) := by
  cases hf : s.xlat.ranges.toList.find? (fun r => r.hits a) with
  | none => exact absurd hi (List.find?_eq_none.1 hf _ ((mem_toList_iff_get ..).2 ⟨i, rfl⟩))
  | some r =>
    obtain ⟨j, rfl⟩ := (mem_toList_iff_get ..).1 (List.mem_of_find?_eq_some hf)
    rw [h.hits_unique hi (List.find?_some (p := fun r : BranchRange => r.hits a) hf)]

section
variable {s : State} {i : Fin 4} {a : Nat}

theorem State.rangesApart.translateBranch_direct (h : s.rangesApart) (hi : (s.xlat.ranges.get i).hits a = true)
    (hm : (s.xlat.ranges.get i).mapped = false) {c : Channel}
    (hc : c.val = (s.xlat.ranges.get i).chanBase + (a - (s.xlat.ranges.get i).base)) : translateBranch s.xlat a = .ok c := by
  simp only [translateBranch, h.find?_hits hi, hm, ← hc, channelOf_val, Bool.false_eq_true, if_false]

theorem State.rangesApart.translateBranch_direct_past (h : s.rangesApart) (hi : (s.xlat.ranges.get i).hits a = true)
    (hm : (s.xlat.ranges.get i).mapped = false)
    (hpast : 48 ≤ (s.xlat.ranges.get i).chanBase + (a - (s.xlat.ranges.get i).base)) :
    translateBranch s.xlat a = .error .noOutlet := by
  simp only [translateBranch, h.find?_hits hi, hm, channelOf_eq_none hpast, Bool.false_eq_true, if_false]

theorem State.rangesApart.translateBranch_mapped (h : s.rangesApart) (hi : (s.xlat.ranges.get i).hits a = true)
    (hm : (s.xlat.ranges.get i).mapped = true) :
    translateBranch s.xlat a = mapLookup s.xlat ((s.xlat.ranges.get i).mapBase + (a - (s.xlat.ranges.get i).base)) := by
  simp only [translateBranch, h.find?_hits hi, hm, if_true]

end

/-- Settles O17: the form of the address, then the one range that hits it, then its mode. -/
theorem translationFollowsRangesAndMap : Obligations.TranslationFollowsRangesAndMap := by
  unfold Obligations.TranslationFollowsRangesAndMap
  intro s addr hs _
  refine ⟨fun c hc => hc ▸ translate_channelForm .., translate_channelForm_past _, fun hb hno => ?_,
    fun i hb hen hlo hhi => ?_⟩
  · rw [translate_branchForm _ hb, translateBranch_of_no_hit hno]
  · have hi : (s.xlat.ranges.get i).hits addr = true := (BranchRange.hits_iff ..).2 ⟨hen, hlo, hhi⟩
    rw [translate_branchForm _ hb]
    constructor
    · exact fun hm => ⟨fun c hc => hs.translateBranch_direct hi hm hc, hs.translateBranch_direct_past hi hm⟩
    · intro hm
      rw [hs.translateBranch_mapped hi hm]
      exact ⟨fun k hk => by rw [← hk, mapLookup_val], mapLookup_past _⟩

/-! ### RANGE_SET: the codes and the record (R171 checks 1 to 4) -/

theorem rangeIndexOf_val (i : Fin 4) : rangeIndexOf i.val = some i := dif_pos i.isLt

theorem rangeIndexOf_eq_none {n : Nat} (h : 4 ≤ n) : rangeIndexOf n = none := dif_neg (by omega)

/-- The sizes of 10.2 are the powers of two up to 2^8. -/
theorem mem_rangeSizes {n : Nat} : n ∈ rangeSizes ↔ ∃ k ≤ 8, n = 2 ^ k := by
  constructor
  · have hpow : ∀ m ∈ rangeSizes, ∃ k < 9, m = 2 ^ k := by decide
    intro h
    obtain ⟨k, hk, e⟩ := hpow n h
    exact ⟨k, by omega, e⟩
  · have hmem : ∀ k < 9, 2 ^ k ∈ rangeSizes := by decide
    rintro ⟨k, hk, rfl⟩
    exact hmem k (by omega)

theorem BranchRange.wellFormed_iff (r : BranchRange) : r.wellFormed = true ↔
    (∃ k ≤ 8, r.size = 2 ^ k) ∧ r.base < 32768 ∧ r.base % r.size = 0 ∧ r.chanBase < 48 ∧ r.mapBase < 128 := by
  simp only [wellFormed, Bool.and_eq_true, decide_eq_true_eq, List.contains_iff_mem, mem_rangeSizes, and_assoc]

theorem rangeSet_badCode {p : List Byte} (s : State) (h : 4 ≤ readByte p 0 ∨ 2 ≤ readByte p 1 ∨ 2 ≤ readByte p 6) :
    rangeSet p s = (.refuse .range, s) := by
  unfold rangeSet
  split
  · next i en mapped hi hen hmapped =>
    rcases h with h | h | h
    · simp [rangeIndexOf_eq_none h] at hi
    · simp [flagOf_eq_none h] at hen
    · simp [flagOf_eq_none h] at hmapped
  · rfl

theorem rangeSet_badRecord {p : List Byte} (s : State) (h : (∀ k : Nat, k ≤ 8 → readWord p 4 ≠ 2 ^ k) ∨ 32768 ≤ readWord p 2 ∨
    readWord p 2 % readWord p 4 ≠ 0 ∨ 48 ≤ readByte p 7 ∨ 128 ≤ readByte p 8) : rangeSet p s = (.refuse .range, s) := by
  have hmalformed (en mapped : Bool) : ¬(readRange p en mapped).wellFormed = true := by
    rw [BranchRange.wellFormed_iff]
    rintro ⟨⟨k, hk, hsize⟩, hbase, halign, hchan, hmap⟩
    rcases h with h | h | h | h | h
    · exact h k hk hsize
    · exact hbase.not_ge h
    · exact h halign
    · exact hchan.not_ge h
    · exact hmap.not_ge h
  unfold rangeSet
  split
  · exact if_neg (hmalformed _ _)
  · rfl

theorem rangeSet_writes {p : List Byte} {i : Fin 4} {en mapped : Bool} (s : State) (hi : readByte p 0 = i.val)
    (hen : readByte p 1 = en.toNat) (hm : readByte p 6 = mapped.toNat) :
    rangeSet p s = writeRange i (readRange p en mapped) s := by
  simp only [rangeSet, hi, hen, hm, rangeIndexOf_val, flagOf_toNat]

/-! ### RANGE_SET: the overlap (R171 check 5) -/

/-- Two ranges that are not empty meet where they share an address. -/
theorem BranchRange.meets_iff {r q : BranchRange} (hr : 0 < r.size) (hq : 0 < q.size) : r.meets q = true ↔
    ∃ a : Nat, r.base ≤ a ∧ a < r.base + r.size ∧ q.base ≤ a ∧ a < q.base + q.size := by
  simp only [meets, Bool.and_eq_true, decide_eq_true_eq]
  constructor
  · rintro ⟨h₁, h₂⟩
    exact ⟨max r.base q.base, by omega⟩
  · rintro ⟨a, h⟩
    omega

/-- The covered addresses of a record share an address with an enabled range. -/
theorem BranchRange.enabled_meets_iff {r q : BranchRange} (hr : 0 < r.size) (hq : 0 < q.size) :
    (q.enable && r.meets q) = true ↔ ∃ a : Nat, r.base ≤ a ∧ a < r.base + r.size ∧ q.hits a = true := by
  simp only [Bool.and_eq_true, meets_iff hr hq, hits_iff]
  constructor
  · rintro ⟨hen, a, h₁, h₂, h₃, h₄⟩
    exact ⟨a, h₁, h₂, hen, h₃, h₄⟩
  · rintro ⟨a, h₁, h₂, hen, h₃, h₄⟩
    exact ⟨hen, a, h₁, h₂, h₃, h₄⟩

/-- A search of the indices finds the least one. -/
theorem find?_indices_eq_some {n : Nat} {p : Fin n → Bool} {j : Fin n} (hj : p j = true) (h : ∀ l < j, p l = false) :
    (indices n).find? p = some j := by
  rw [indices_eq_finRange, List.find?_eq_some_iff_getElem]
  refine ⟨hj, j.val, by simp, by simp, fun l hl => ?_⟩
  rw [List.getElem_finRange, Bool.not_eq_true', h _ hl]

section
variable {x : Translator} {i : Fin 4} {r : BranchRange}

theorem overlapWith_disabled (h : r.enable = false) : overlapWith x i r = none := by
  rw [overlapWith, h, if_neg Bool.false_ne_true]

theorem overlapWith_eq_none (hr : 0 < r.size) (hx : ∀ j : Fin 4, 0 < (x.ranges.get j).size)
    (h : ∀ j : Fin 4, j ≠ i → ∀ a : Nat, r.base ≤ a → a < r.base + r.size → (x.ranges.get j).hits a = false) :
    overlapWith x i r = none := by
  unfold overlapWith
  split
  · refine List.find?_eq_none.2 fun j _ hj => ?_
    rw [Bool.and_assoc, Bool.and_eq_true, decide_eq_true_eq, BranchRange.enabled_meets_iff hr (hx j)] at hj
    obtain ⟨hji, a, hlo, hhi, ha⟩ := hj
    simp [h j hji a hlo hhi] at ha
  · rfl

theorem overlapWith_eq_some {j : Fin 4} {a : Nat} (hr : 0 < r.size) (hx : ∀ l : Fin 4, 0 < (x.ranges.get l).size)
    (hen : r.enable = true) (hji : j ≠ i) (hlo : r.base ≤ a) (hhi : a < r.base + r.size) (ha : (x.ranges.get j).hits a = true)
    (hfirst : ∀ l : Fin 4, l < j → l ≠ i → ∀ b : Nat, r.base ≤ b → b < r.base + r.size → (x.ranges.get l).hits b = false) :
    overlapWith x i r = some j := by
  rw [overlapWith, if_pos hen]
  refine find?_indices_eq_some ?_ fun l hl => ?_
  · rw [Bool.and_assoc, Bool.and_eq_true, decide_eq_true_eq, BranchRange.enabled_meets_iff hr (hx j)]
    exact ⟨hji, a, hlo, hhi, ha⟩
  · rw [← Bool.not_eq_true, Bool.and_assoc, Bool.and_eq_true, decide_eq_true_eq, BranchRange.enabled_meets_iff hr (hx l)]
    rintro ⟨hli, b, hblo, hbhi, hb⟩
    simp [hfirst l hl hli b hblo hbhi] at hb

theorem writeRange_overlaps {s : State} {j : Fin 4} (hr : r.wellFormed = true) (h : overlapWith s.xlat i r = some j) :
    writeRange i r s = (⟨.overlap, [byte j.val]⟩, s) := by
  simp only [writeRange, hr, h, if_true]

theorem writeRange_stores {s : State} (hr : r.wellFormed = true) (h : overlapWith s.xlat i r = none) :
    writeRange i r s = (⟨.done, []⟩, { s with xlat := { s.xlat with ranges := s.xlat.ranges.set i r } }) := by
  simp only [writeRange, hr, h, if_true]

end

/-! ### The statement about RANGE_SET -/

/-- Settles O18: the codes, then the record's form, then the search for an overlap. -/
theorem rangeSetStoresOrRefuses : Obligations.RangeSetStoresOrRefuses := by
  unfold Obligations.RangeSetStoresOrRefuses
  intro s f rest ht hk hl
  have answers {a : Answer} {t : State} (h : rangeSet f.payload (s.dequeue rest) = (a, t)) :
      exec .rangeSet s = .next (t.answered f a) :=
    request_answers ht (requestRow_of_kind hk (by decide)) (by simp [fits, hl]) h
  refine ⟨fun h => answers ?_, ?_⟩
  · rcases h with h | h | h | h
    · exact rangeSet_badCode _ (.inl h)
    · exact rangeSet_badCode _ (.inr (.inl h))
    · exact rangeSet_badCode _ (.inr (.inr h))
    · exact rangeSet_badRecord _ h
  · rintro i en mapped k base chanBase mapBase hi hen hm hk hsize rfl hbase halign rfl hchan rfl hmap
    rw [← hsize] at halign ⊢
    have hwrites := rangeSet_writes (s.dequeue rest) hi hen hm
    have hwell : (readRange f.payload en mapped).wellFormed = true :=
      (BranchRange.wellFormed_iff _).2 ⟨⟨k, hk, hsize⟩, hbase, halign, hchan, hmap⟩
    have hpos : 0 < readWord f.payload 4 := hsize ▸ Nat.two_pow_pos k
    refine ⟨fun hfree hsizes => ⟨_, rfl, answers (hwrites.trans (writeRange_stores hwell ?_))⟩,
      fun j a hen hji hlo hhi ha hfirst hsizes =>
        answers (hwrites.trans (writeRange_overlaps hwell (overlapWith_eq_some hpos hsizes hen hji hlo hhi ha hfirst)))⟩
    rcases hfree with hdisabled | hfree
    · exact overlapWith_disabled hdisabled
    · refine overlapWith_eq_none hpos hsizes fun j hji a hlo hhi => ?_
      by_contra ha
      rw [Bool.not_eq_false] at ha
      have hen := ((BranchRange.hits_iff ..).1 ha).1
      simp [hfree j hji hen a hlo hhi] at ha

end Sys2Proof.Machine
end

section
/-! MAP_SET (R173): the carried entries, the first that fails a check, and the map with the entries written. -/

namespace Sys2Proof.Machine

/-! ### The carried entries (11.5) -/

/-- A MAP_SET entry as the two numbers its checks read. -/
def entryNumbers (e : Byte × Byte) : Nat × Nat :=
  (e.1.toNat, e.2.toNat)

/-- The bytes of a MAP_SET entry, VALID and CHANNEL. -/
def carriedBytes (e : Byte × Byte) : List Byte :=
  [e.1, e.2]

theorem carriedBytes_length (e : Byte × Byte) : (carriedBytes e).length = 2 := rfl

theorem readByte_carried {start : Byte} {entries : List (Byte × Byte)} {k : Nat} {e : Byte × Byte} (he : entries[k]? = some e) :
    readByte (start :: entries.flatMap carriedBytes) (1 + 2 * k) = e.1.toNat ∧
    readByte (start :: entries.flatMap carriedBytes) (2 + 2 * k) = e.2.toNat := by
  have hfst := getElem?_flatMap_records carriedBytes_length he (j := 0) (by decide)
  have hsnd := getElem?_flatMap_records carriedBytes_length he (j := 1) (by decide)
  constructor
  · rw [Nat.add_comm]
    exact readByte_of_getElem? hfst
  · rw [Nat.add_comm]
    exact readByte_of_getElem? hsnd

theorem readEntries_carried (start : Byte) (entries : List (Byte × Byte)) :
    readEntries (start :: entries.flatMap carriedBytes) = entries.map entryNumbers := by
  have hcount : ((start :: entries.flatMap carriedBytes).length - 1) / 2 = entries.length := by
    rw [List.length_cons, length_flatMap_records carriedBytes_length]
    omega
  refine List.ext_getElem (by simp only [readEntries, hcount, List.length_map, List.length_range]) fun k _ hk => ?_
  rw [List.length_map] at hk
  obtain ⟨hfst, hsnd⟩ := readByte_carried (start := start) (List.getElem?_eq_getElem hk)
  simp only [readEntries, List.getElem_map, List.getElem_range, entryNumbers, hfst, hsnd]

/-! ### The checks (R173) -/

section
variable {check : Nat × Nat → Bool} {es : List (Nat × Nat)}

theorem firstFailing_eq_none (h : ∀ e ∈ es, check e = true) (k : Nat) : firstFailing check k es = none := by
  induction es generalizing k with
  | nil => rfl
  | cons e es ih =>
    rw [firstFailing, if_pos (h e List.mem_cons_self)]
    exact ih (fun d hd => h d (List.mem_cons_of_mem _ hd)) _

theorem firstFailing_eq_some {n : Nat} {e : Nat × Nat} (he : es[n]? = some e) (hbad : check e = false)
    (hgood : ∀ d ∈ es.take n, check d = true) (k : Nat) : firstFailing check k es = some (k + n) := by
  induction es generalizing k n with
  | nil => cases he
  | cons d es ih =>
    cases n with
    | zero =>
      obtain rfl : d = e := Option.some.inj he
      rw [firstFailing, hbad, if_neg Bool.false_ne_true, Nat.add_zero]
    | succ n =>
      rw [firstFailing, if_pos (hgood d List.mem_cons_self), ih he fun x hx => hgood x (List.mem_cons_of_mem _ hx)]
      congr 1
      omega

end

/-- Check 2 of R173: VALID is YES or NO. -/
theorem flagOf_isSome_iff {n : Nat} : (flagOf n).isSome = true ↔ n < 2 := by
  match n with
  | 0 | 1 => simp [flagOf]
  | n + 2 => simp [flagOf_eq_none]

theorem byte_toNat_eq_one {b : Byte} : b.toNat = 1 ↔ b = 1 := by
  rw [← BitVec.toNat_inj]
  rfl

section
variable {entries : List (Byte × Byte)} {k : Nat} {e : Byte × Byte}

theorem entriesFailure_badValid (he : entries[k]? = some e) (hbad : 2 ≤ e.1.toNat) (hgood : ∀ d ∈ entries.take k, d.1.toNat < 2) :
    entriesFailure (entries.map entryNumbers) = some (k + 1) := by
  rw [entriesFailure, firstFailing_eq_some (n := k) (e := entryNumbers e) (by simp [he])]
  · simp [Nat.add_comm]
  · simp [entryNumbers, flagOf_eq_none hbad]
  · rw [← List.map_take]
    exact List.forall_mem_map.2 fun d hd => flagOf_isSome_iff.2 (hgood d hd)

theorem entriesFailure_of_valid (h : ∀ d ∈ entries, d.1.toNat < 2) : entriesFailure (entries.map entryNumbers) =
    firstFailing (fun e => e.1 == 0 || decide (e.2 < 48)) 1 (entries.map entryNumbers) := by
  rw [entriesFailure, firstFailing_eq_none (List.forall_mem_map.2 fun d hd => flagOf_isSome_iff.2 (h d hd))]

/-- Check 3 of R173: a valid entry names a channel. -/
theorem channelCheck_iff (hv : e.1.toNat < 2) :
    ((entryNumbers e).1 == 0 || decide ((entryNumbers e).2 < 48)) = true ↔ (e.1 = 1 → e.2.toNat < 48) := by
  rw [← byte_toNat_eq_one, Bool.or_eq_true, beq_iff_eq, decide_eq_true_eq]
  simp only [entryNumbers]
  omega

theorem entriesFailure_badChannel (hv : ∀ d ∈ entries, d.1.toNat < 2) (he : entries[k]? = some e) (h₁ : e.1 = 1)
    (hbad : 48 ≤ e.2.toNat) (hgood : ∀ d ∈ entries.take k, d.1 = 1 → d.2.toNat < 48) :
    entriesFailure (entries.map entryNumbers) = some (k + 1) := by
  rw [entriesFailure_of_valid hv, Nat.add_comm k]
  refine firstFailing_eq_some (e := entryNumbers e) (by simp [he]) ?_ ?_ 1
  · rw [← Bool.not_eq_true, channelCheck_iff (hv e (List.mem_of_getElem? he))]
    exact fun h => absurd (h h₁) (by omega)
  · rw [← List.map_take]
    exact List.forall_mem_map.2 fun d hd => (channelCheck_iff (hv d (List.mem_of_mem_take hd))).2 (hgood d hd)

theorem entriesFailure_eq_none (h : ∀ e ∈ entries, e.1 = 0 ∨ (e.1 = 1 ∧ e.2.toNat < 48)) :
    entriesFailure (entries.map entryNumbers) = none := by
  have hv : ∀ d ∈ entries, d.1.toNat < 2 := by
    intro d hd
    rcases h d hd with h₀ | ⟨h₁, -⟩
    · rw [h₀]; decide
    · rw [h₁]; decide
  rw [entriesFailure_of_valid hv]
  refine firstFailing_eq_none (List.forall_mem_map.2 fun d hd => (channelCheck_iff (hv d hd)).2 fun h₁ => ?_) 1
  rcases h d hd with h₀ | ⟨-, hc⟩
  · rw [h₀] at h₁
    exact absurd h₁ (by decide)
  · exact hc

end

/-! ### The entries written (R173) -/

/-- What is stored for an entry that passes the checks. -/
theorem entryOf_fields {e : Byte × Byte} (h : e.1 = 0 ∨ (e.1 = 1 ∧ e.2.toNat < 48)) :
    (entryOf (entryNumbers e)).valid = decide (e.1 = 1) ∧
    (entryOf (entryNumbers e)).channel.val = if e.1 = 1 then e.2.toNat else 0 := by
  rcases h with h₀ | ⟨h₁, hc⟩
  · simp [entryOf, entryNumbers, h₀]
  · have hch : channelOf e.2.toNat = some ⟨e.2.toNat, hc⟩ := dif_pos hc
    simp [entryOf, entryNumbers, h₁, hch]

theorem get_writeEntries_outside {es : List (Nat × Nat)} {k : Nat} {j : Fin 128} (m : Table MapEntry 128)
    (h : j.val < k ∨ k + es.length ≤ j.val) : (writeEntries k es m).get j = m.get j := by
  induction es generalizing k m with
  | nil => rfl
  | cons e es ih =>
    rw [List.length_cons] at h
    rw [writeEntries, ih _ (by omega)]
    split
    · exact Table.get_set_other _ (fun hkj => by rw [← hkj] at h; dsimp only at h; omega) _
    · rfl

theorem get_writeEntries_at {es : List (Nat × Nat)} {k n : Nat} {e : Nat × Nat} {j : Fin 128} (m : Table MapEntry 128)
    (he : es[n]? = some e) (hj : j.val = k + n) : (writeEntries k es m).get j = entryOf e := by
  induction es generalizing k n m with
  | nil => cases he
  | cons d es ih =>
    rw [writeEntries]
    cases n with
    | zero =>
      obtain rfl : d = e := Option.some.inj he
      obtain rfl : j.val = k := hj
      rw [get_writeEntries_outside _ (.inl (Nat.lt_succ_self _)), dif_pos j.isLt, Table.get_set_same]
    | succ n => exact ih _ he (by omega)

/-! ### The statement about MAP_SET -/

section
variable {p : List Byte} {s : State}

theorem mapSet_tooLong (h : 128 ≤ readByte p 0 ∨ 128 < readByte p 0 + (readEntries p).length) :
    mapSet p s = (⟨.range, [0]⟩, s) := if_pos h

theorem mapSet_badEntry {k : Nat} (h₁ : readByte p 0 + (readEntries p).length ≤ 128) (h₂ : readByte p 0 < 128)
    (h : entriesFailure (readEntries p) = some k) : mapSet p s = (⟨.range, [byte k]⟩, s) := by
  rw [mapSet, if_neg (by simp only [Config.mapSize]; omega), h]

theorem mapSet_writes (h₁ : readByte p 0 + (readEntries p).length ≤ 128) (h₂ : readByte p 0 < 128)
    (h : entriesFailure (readEntries p) = none) :
    mapSet p s = (⟨.done, mapBytes (readByte p 0) (writeEntries (readByte p 0) (readEntries p) s.xlat.map)⟩,
      { s with xlat := { s.xlat with map := writeEntries (readByte p 0) (readEntries p) s.xlat.map } }) := by
  rw [mapSet, if_neg (by simp only [Config.mapSize]; omega), h]

end

/-- Settles O19: the length of the list, then its first failing entry, then the map with the entries written. -/
theorem mapSetWritesOrRefuses : Obligations.MapSetWritesOrRefuses := by
  unfold Obligations.MapSetWritesOrRefuses
  intro s f rest start entries ht hk (hp : f.payload = start :: entries.flatMap carriedBytes) hlen
  have hfit : fits .mapSet f.payload = true := by
    simp only [fits, hp, List.length_cons, length_flatMap_records carriedBytes_length, Bool.and_eq_true, beq_iff_eq, decide_eq_true_eq]
    omega
  have answers {a : Answer} {t : State} (h : mapSet f.payload (s.dequeue rest) = (a, t)) :
      exec .mapSet s = .next (t.answered f a) :=
    request_answers ht (requestRow_of_kind hk (by decide)) hfit h
  have hstart : readByte f.payload 0 = start.toNat := by rw [hp]; rfl
  have hread : readEntries f.payload = entries.map entryNumbers := by rw [hp, readEntries_carried]
  have hcount : (readEntries f.payload).length = entries.length := by rw [hread, List.length_map]
  rw [← hstart, ← hcount]
  refine ⟨fun h => answers (mapSet_tooLong h), fun h₁ h₂ => ⟨fun k e he hbad => ?_, fun hgood => ?_⟩⟩
  · refine answers (mapSet_badEntry h₁ h₂ ?_)
    rw [hread]
    rcases hbad with ⟨hv, hbefore⟩ | ⟨hv, h₁, hc, hbefore⟩
    · exact entriesFailure_badValid he hv hbefore
    · exact entriesFailure_badChannel hv he h₁ hc hbefore
  · refine ⟨_, answers (mapSet_writes h₁ h₂ (by rw [hread, entriesFailure_eq_none hgood])),
      fun j hj => get_writeEntries_outside _ hj, fun k e j he hj => ?_⟩
    rw [get_writeEntries_at (e := entryNumbers e) _ (by rw [hread, List.getElem?_map, he]; rfl) hj]
    exact entryOf_fields (hgood e (List.mem_of_getElem? he))

end Sys2Proof.Machine
end

section
/-! What an event does to the link, but for the frames that come and go: a run of raises (R183), and no raise leaves less room in the
transmit order (R182). -/

namespace Sys2Proof.Machine

variable {b s t : State}

/-! ### Runs of raises -/

/-- The link of `t` is that of `s` after a run of raises. -/
def State.raisesTo (s t : State) : Prop :=
  ∃ ks : List NoticeKind, t.link = (ks.foldl (fun u k => raise k u) s).link

theorem State.raisesTo.of_link (h : t.link = s.link) : s.raisesTo t :=
  ⟨[], h⟩

namespace State.raisesTo

theorem refl (s : State) : s.raisesTo s :=
  .of_link rfl

theorem same (h : b.raisesTo s) (e : t.link = s.link) : b.raisesTo t := by
  obtain ⟨ks, hks⟩ := h
  exact ⟨ks, e.trans hks⟩

theorem raise {k : NoticeKind} (h : b.raisesTo s) : b.raisesTo (Machine.raise k s) := by
  obtain ⟨ks, hks⟩ := h
  refine ⟨ks ++ [k], ?_⟩
  rw [List.foldl_append, List.foldl_cons, List.foldl_nil]
  exact raise_link_congr k hks

theorem queue (h : s.raisesTo t) : t.link.queue = s.link.queue := by
  obtain ⟨ks, hks⟩ := h
  rw [hks]
  exact List.foldlRecOn (motive := fun u : State => u.link.queue = s.link.queue) ks _ rfl fun u hu k _ =>
    (raise_queue k u).trans hu

end State.raisesTo

/-! ### The operations of the Drive Unit and of the Duty Program Unit -/

theorem keptByDrive_raisesTo (b : State) : KeptByDrive b.raisesTo where
  slot _ _ _ _ _ h := h.same rfl
  claim _ _ _ h := h.same rfl
  raise _ _ h := h.raise
  position _ _ _ _ _ h := h.same rfl
  queue _ _ _ h := h.same rfl
  report _ _ _ _ _ _ h := h.same rfl

namespace State.raisesTo

theorem giveTarget {c : Channel} {n : Nat} (h : b.raisesTo s) : b.raisesTo (Machine.giveTarget c n s) :=
  (keptByDrive_raisesTo b).giveTarget_any (fun _ _ _ h => h.same rfl) c n h

theorem requestHoming {c : Channel} (h : b.raisesTo s) : b.raisesTo (Machine.requestHoming c s) :=
  (keptByDrive_raisesTo b).requestHoming c h

theorem stopChannel {c : Channel} (h : b.raisesTo s) : b.raisesTo (Machine.stopChannel c s) :=
  (keptByDrive_raisesTo b).stopChannel c h

theorem failStepsOn {c : Channel} {why : FailReason} (h : b.raisesTo s) : b.raisesTo (Machine.failStepsOn c why s) :=
  (keptByDrive_raisesTo b).failStepsOn c why h

theorem limitEvent (c : Channel) (line : LimitLine) (active : Bool) (h : b.raisesTo s) :
    b.raisesTo (Machine.limitEvent c line active s) := by
  have h₁ : b.raisesTo (setLimit c line active s) := h.same (by cases line <;> rfl)
  unfold Machine.limitEvent
  simp only
  split
  · exact h
  · split
    · exact h₁
    · exact (keptByDrive_raisesTo b).limitTaken c line active h₁

theorem bhoAssertion (bank : BankId) (h : b.raisesTo s) : b.raisesTo (Machine.bhoAssertion bank s) := by
  have h₁ : b.raisesTo (setBho bank true s) := h.same rfl
  have hhold (c : Channel) {u : State} (hu : b.raisesTo u) : b.raisesTo (holdOutlet u c) := by
    unfold holdOutlet
    split
    · exact hu
    · split
      · exact .failStepsOn (hu.same rfl)
      · exact .failStepsOn (hu.same rfl)
      · exact .failStepsOn (hu.same rfl)
      · exact .failStepsOn (hu.same rfl)
      · exact .failStepsOn (hu.same rfl)
      · exact hu
      · exact hu
  have hheld : b.raisesTo (bankHeld bank (setBho bank true s)) :=
    List.foldlRecOn (motive := b.raisesTo) _ _ (List.foldlRecOn (motive := b.raisesTo) _ _ h₁ fun u hu c _ =>
      hu.stopChannel.same rfl) fun u hu c _ => hhold c hu
  unfold Machine.bhoAssertion
  simp only
  split
  · exact h
  · split
    · exact h₁
    · exact .raise (hheld.same rfl)

theorem bhoRelease (bank : BankId) (h : b.raisesTo s) : b.raisesTo (Machine.bhoRelease bank s) := by
  have h₁ : b.raisesTo (setBho bank false s) := h.same rfl
  have hhome (c : Channel) {u : State} (hu : b.raisesTo u) : b.raisesTo (rehomeHeld u c) := by
    unfold rehomeHeld
    split
    · exact hu
    · split
      · exact .requestHoming (hu.same rfl)
      · exact hu
  unfold Machine.bhoRelease
  simp only
  split
  · split
    · exact h₁
    · exact .raise (List.foldlRecOn (motive := b.raisesTo) _ _ (h₁.same rfl) fun u hu c _ => hhome c hu)
  · exact h

/-! ### The allocation round and the disable of a pool -/

theorem setPool {p : Pool} {r : PoolRecord} (h : b.raisesTo s) : b.raisesTo (s.setPool p r) :=
  h.same (State.setPool_link ..)

theorem writeLog {x : LogEntry} (h : b.raisesTo s) : b.raisesTo (Machine.writeLog x s) := by
  have hraises (ks : List NoticeKind) : b.raisesTo (ks.foldl (fun u k => Machine.raise k u) s) :=
    List.foldlRecOn (motive := b.raisesTo) ks _ h fun _ hu _ _ => hu.raise
  rw [writeLog_eq]
  exact (hraises _).same rfl

theorem runRound {p : Pool} (h : b.raisesTo s) : b.raisesTo (Machine.runRound p s) := by
  have hbegun : b.raisesTo (roundBegun p s) := by
    unfold roundBegun capacityStage swapStage startRound
    simp only
    split
    · exact h.setPool.setPool.raise.setPool
    · exact h.setPool.setPool
  have hrecords : b.raisesTo (roundRecords p s) :=
    .setPool (hbegun.same (foldl_grantOutlet_link ..))
  have htargets : b.raisesTo ((roundParts p s).foldl targetOutlet (roundRecords p s)) := by
    refine List.foldlRecOn (motive := b.raisesTo) _ _ hrecords fun u hu q _ => ?_
    unfold targetOutlet
    split
    · split
      · exact hu.giveTarget
      · exact hu
    · exact hu
  have hresults : b.raisesTo (handOver p (roundParts p s) ((roundParts p s).foldl targetOutlet (roundRecords p s))) := by
    refine List.foldlRecOn (motive := b.raisesTo) _ _ htargets fun u hu q _ => ?_
    rw [takeResult_eq_writeLogs]
    exact List.foldlRecOn (motive := b.raisesTo) _ _ (hu.same rfl) fun _ hv _ _ => hv.writeLog
  rw [runRound_eq]
  exact hresults.same (by rw [feederStage_frame])

theorem disablePool {p : Pool} (h : b.raisesTo s) : b.raisesTo (Machine.disablePool p s) := by
  have hrecords : b.raisesTo (disableRecords p s) := h.same (by rw [disableRecords_frame p s])
  refine List.foldlRecOn (motive := b.raisesTo) _ _ hrecords fun u hu c _ => ?_
  split
  · exact hu.giveTarget
  · exact hu

theorem applyEnable {p : Pool} {was is_ : Bool} (h : b.raisesTo s) : b.raisesTo (Machine.applyEnable p was is_ s) := by
  unfold Machine.applyEnable
  split
  · exact h.runRound
  · exact h.disablePool
  · exact h
  · exact h

/-! ### The events of the other blocks -/

theorem roundTimerExpiry (p : Pool) (h : b.raisesTo s) : b.raisesTo (Machine.roundTimerExpiry p s) := by
  unfold Machine.roundTimerExpiry
  split
  · exact h.runRound
  · exact h

theorem capacityStalenessExpiry (h : b.raisesTo s) : b.raisesTo (Machine.capacityStalenessExpiry s) := by
  unfold Machine.capacityStalenessExpiry
  simp only
  split
  · exact .raise (h.same rfl)
  · exact h

theorem stalenessTimerExpiry (c : Channel) (h : b.raisesTo s) : b.raisesTo (Machine.stalenessTimerExpiry c s) := by
  unfold Machine.stalenessTimerExpiry
  split
  · exact .raise (h.same rfl)
  all_goals exact h

theorem sampleEvent (i : InputId) (r : Int) (h : b.raisesTo s) : b.raisesTo (Machine.sampleEvent i r s) := by
  have hduty := (keptByDrive_raisesTo b).toKeptByDuty
  have hsampled (y : Sensor) : b.raisesTo (sampledState i y s) := by
    unfold sampledState
    split
    · exact h.same rfl
    · exact .raise (h.same rfl)
  by_cases hi : i.val < 48
  · rw [sampleEvent_branch (c := ⟨i.val, hi⟩) r s rfl]
    unfold handSample
    split
    · exact hduty.sampleStep _ r ((hsampled _).same rfl)
    · split
      · exact hduty.sensorFailure _ (hsampled _)
      · exact hsampled _
  · rw [sampleEvent_plant r s (by omega)]
    exact hsampled _

/-- The tick counts the gap timer first, and then sets off what it sets off. -/
theorem clockTick (s : State) : (advanceMs (Config.msPerSecond - s.msPhase) s).raisesTo (Machine.clockTick s) := by
  unfold Machine.clockTick
  simp only
  split
  · exact (keptByDrive_raisesTo _).minuteEvent _ (.of_link rfl)
  · exact .of_link rfl

theorem reachTimerExpiry (i : SlotId) (h : b.raisesTo s) : b.raisesTo (Machine.reachTimerExpiry i s) := by
  unfold Machine.reachTimerExpiry
  split
  · exact (keptByDrive_raisesTo b).runDuty _ h
  · exact h

theorem holdTimerExpiry (i : SlotId) (h : b.raisesTo s) : b.raisesTo (Machine.holdTimerExpiry i s) := by
  unfold Machine.holdTimerExpiry
  split
  · exact (keptByDrive_raisesTo b).runDuty _ h
  · exact h

theorem gapTimerExpiryProg (i : SlotId) (h : b.raisesTo s) : b.raisesTo (Machine.gapTimerExpiryProg i s) := by
  unfold Machine.gapTimerExpiryProg
  split
  · exact (keptByDrive_raisesTo b).beginPass i _ h
  · exact h

end State.raisesTo

/-! ### The transmit order and the kinds that are not pending (R182, R183) -/

theorem noticeKinds_nodup : noticeKinds.Nodup := by decide

theorem mem_noticeKinds (k : NoticeKind) : k ∈ noticeKinds := by cases k <;> decide

theorem notPending_le (s : State) : s.notPending ≤ 8 :=
  List.length_filter_le ..

theorem notPending_congr {t : State} (h : t.link.notices = s.link.notices) : t.notPending = s.notPending := by
  simp only [State.notPending, State.isPending, h]

/-- A kind that was not pending is one kind less that may still send its frame. -/
theorem notPending_raise {k : NoticeKind} (h : s.isPending k = false) : (raise k s).notPending + 1 = s.notPending := by
  have hmem : k ∈ noticeKinds.filter fun j => !s.isPending j := by
    rw [List.mem_filter, h]
    exact ⟨mem_noticeKinds k, rfl⟩
  have herase : (noticeKinds.filter fun j => !(raise k s).isPending j) = (noticeKinds.filter fun j => !s.isPending j).erase k := by
    rw [(noticeKinds_nodup.filter _).erase_eq_filter, List.filter_filter]
    refine List.filter_congr fun j _ => ?_
    rw [raise_isPending, Bool.not_or, Bool.and_comm]
    rfl
  rw [State.notPending, herase, List.length_erase_of_mem hmem]
  exact Nat.sub_add_cancel (List.length_pos_of_mem hmem)

/-- A raise leaves no less room: the frame it makes ready is the one its kind could still send. -/
theorem raise_room (k : NoticeKind) (s : State) :
    (raise k s).link.tx.length + (raise k s).notPending ≤ s.link.tx.length + s.notPending := by
  rcases raise_cases k s with ⟨-, e⟩ | ⟨hp, -, e⟩ | ⟨hp, -, e⟩
  · rw [e]
  · have hless := notPending_raise hp
    have htx : (raise k s).link.tx = s.link.tx := by rw [e]
    rw [htx]
    omega
  · have hless := notPending_raise hp
    have htx : (raise k s).link.tx.length = s.link.tx.length + 1 := by
      rw [e, makeReady_tx, List.length_append, List.length_singleton]
    omega

theorem State.raisesTo.room {t : State} (h : s.raisesTo t) :
    t.link.tx.length + t.notPending ≤ s.link.tx.length + s.notPending := by
  obtain ⟨ks, hks⟩ := h
  rw [notPending_congr (congrArg Link.notices hks), hks]
  exact List.foldlRecOn (motive := fun u : State => u.link.tx.length + u.notPending ≤ s.link.tx.length + s.notPending) ks _
    le_rfl fun u hu k _ => (raise_room k u).trans hu

end Sys2Proof.Machine
end

section
/-! A request row is its body, executed on the head frame (R180). A body answers DONE or DONE_CLAMPED, or leaves its state as it was; and
but for the notice requests and RESET it changes the link by raises alone. -/

namespace Sys2Proof.Machine

variable {s : State} {p : List Byte}

/-! ### The body of a row -/

/-- The body of a request row, and of BAD_KIND; an event has none. -/
def Instr.requestBody : Instr → Option (List Byte → State → Answer × State)
  | .badKind => some badKind
  | .outletSet => some outletSet
  | .outletDrop => some outletDrop
  | .profileSet => some profileSet
  | .barSet => some barSet
  | .demand => some demand
  | .rehome => some rehome
  | .faultClear => some faultClear
  | .poolSet => some poolSet
  | .profileSwap => some profileSwap
  | .supply => some supply
  | .rebalance => some rebalance
  | .rangeSet => some rangeSet
  | .mapSet => some mapSet
  | .progLoadFirst => some progLoadFirst
  | .progLoadNext => some progLoadNext
  | .progStart => some progStart
  | .progStop => some progStop
  | .clockSet => some clockSet
  | .readOutlet => some readOutlet
  | .readPool => some readPool
  | .readProg => some readProg
  | .readSensors => some readSensors
  | .readLog => some readLog
  | .readStatus => some readStatus
  | .noticeAck => some noticeAck
  | .noticeMask => some noticeMask
  | .reset => some resetRequest
  | _ => none

theorem exec_of_requestBody {i : Instr} {body : List Byte → State → Answer × State} (h : Instr.requestBody i = some body)
    (s : State) : exec i s = request i body s := by
  cases i <;> cases h <;> rfl

theorem catalogue_requestBody : ∀ e ∈ catalogue, (Instr.requestBody e.2).isSome = true := by
  simp [catalogue, Instr.requestBody]

/-- Every frame calls for a row that has a body. -/
theorem requestRow_requestBody (f : Frame) : ∃ body, Instr.requestBody (requestRow f) = some body := by
  rw [← Option.isSome_iff_exists]
  unfold requestRow kindRow
  split
  · rfl
  · split
    · next e he => exact catalogue_requestBody e (List.mem_of_find?_eq_some he)
    · rfl

/-! ### What a body answers and leaves -/

/-- The status of a request that took effect (R181). -/
def Status.accepts (st : Status) : Prop :=
  st = .done ∨ st = .doneClamped

/-- Refused with the state as it was, or accepted with the link changed by raises alone. -/
def State.refusedOrRaises (s : State) (r : Answer × State) : Prop :=
  r.2 = s ∨ r.1.status.accepts ∧ s.raisesTo r.2

theorem State.refusedOrRaises.refused {a : Answer} : s.refusedOrRaises (a, s) :=
  .inl rfl

theorem State.refusedOrRaises.done {data : List Byte} {t : State} (h : s.raisesTo t) : s.refusedOrRaises (⟨.done, data⟩, t) :=
  .inr ⟨.inl rfl, h⟩

theorem State.refusedOrRaises.clamped {c : Bool} {data : List Byte} {t : State} (h : s.raisesTo t) :
    s.refusedOrRaises (⟨doneStatus c, data⟩, t) :=
  .inr ⟨(doneStatus_cases c).1, h⟩

theorem State.refusedOrRaises.raisesTo {r : Answer × State} (h : s.refusedOrRaises r) : s.raisesTo r.2 :=
  h.elim (fun e => e ▸ .refl s) And.right

theorem atOutlet_refusedOrRaises {f : Channel → Answer × State} (hf : ∀ c, s.refusedOrRaises (f c)) :
    s.refusedOrRaises (atOutlet p s f) := by
  unfold atOutlet
  split
  · exact hf _
  · exact .refused

open State.refusedOrRaises

/-! ### The requests of the Outlet Table and of the Demand Intake -/

theorem outletSet_refusedOrRaises : s.refusedOrRaises (outletSet p s) := by
  have hcreate (c : Channel) (fx : FixedPart) (prof : Profile) : s.raisesTo (createOutlet c fx prof s) := by
    unfold createOutlet
    split
    · exact .of_link rfl
    · exact .requestHoming (.of_link rfl)
  have hwrite (c : Channel) (rawF : FixedPart) (rawP : Profile) : s.refusedOrRaises (writeOutlet c rawF rawP s) := by
    unfold writeOutlet
    simp only
    split
    · exact clamped (hcreate ..)
    · split
      · exact refused
      · exact clamped (.of_link rfl)
  refine atOutlet_refusedOrRaises fun c => ?_
  split
  · simp only
    split
    · exact hwrite ..
    · exact refused
  · exact refused

theorem outletDrop_refusedOrRaises : s.refusedOrRaises (outletDrop p s) := by
  refine atOutlet_refusedOrRaises fun c => ?_
  split
  · exact refused
  · exact done (.stopChannel (.of_link rfl))

theorem profileSet_refusedOrRaises : s.refusedOrRaises (profileSet p s) := by
  refine atOutlet_refusedOrRaises fun c => ?_
  split
  · split
    · exact refused
    · simp only
      split
      · exact refused
      · split
        · exact refused
        · exact clamped (.of_link rfl)
  · exact refused

theorem barSet_refusedOrRaises : s.refusedOrRaises (barSet p s) := by
  have hlock {c : Channel} {u : State} (hu : s.raisesTo u) : s.raisesTo (lockOutlet c u) := by
    unfold lockOutlet
    split
    · exact hu
    · split
      · exact .giveTarget (hu.same rfl)
      · exact hu
  have happly {c : Channel} {old new : Bars} {u : State} (hu : s.raisesTo u) : s.raisesTo (applyBars c old new u) := by
    have hall : s.raisesTo (if old.all = false ∧ new.all = true then lockOutlet c u
        else if old.all = true ∧ new.all = false then unlockOutlet c u else u) := by
      split
      · exact hlock hu
      · split
        · exact hu.same rfl
        · exact hu
    unfold applyBars
    simp only
    split
    · exact hall.failStepsOn
    · exact hall
  refine atOutlet_refusedOrRaises fun c => ?_
  split
  · exact refused
  · split
    · exact refused
    · exact done (happly (.of_link rfl))

theorem demand_refusedOrRaises : s.refusedOrRaises (demand p s) := by
  obtain ⟨ds, hds⟩ := demandItems_writes_demands (p.length / 4) p s
  exact done (.of_link (by rw [hds]))

theorem rehome_refusedOrRaises : s.refusedOrRaises (rehome p s) := by
  refine atOutlet_refusedOrRaises fun c => ?_
  split
  · exact done (.requestHoming (.of_link rfl))
  · exact refused

theorem faultClear_refusedOrRaises : s.refusedOrRaises (faultClear p s) := by
  refine atOutlet_refusedOrRaises fun c => ?_
  split
  · exact refused
  · split
    · exact done (.requestHoming (.of_link rfl))
    · exact refused

/-! ### The requests of the Supply Pools -/

theorem designate_link (h : HwPool) (old new : Option Channel) (s : State) : (designate h old new s).link = s.link := by
  unfold designate
  split
  · rfl
  · cases old <;> cases new <;> rfl

theorem poolSet_refusedOrRaises : s.refusedOrRaises (poolSet p s) := by
  unfold poolSet
  split
  · unfold poolSetSteam
    simp only
    split
    · exact clamped (.applyEnable (.of_link rfl))
    · exact refused
  · unfold poolSetHw
    split
    · exact refused
    · refine clamped (.applyEnable (.of_link ?_))
      rw [designate_link, State.setHwPart_link, State.setPool_link]
  · exact refused
  · exact refused

theorem supply_refusedOrRaises : s.refusedOrRaises (supply p s) :=
  clamped (.of_link rfl)

theorem profileSwap_refusedOrRaises : s.refusedOrRaises (profileSwap p s) := by
  unfold profileSwap
  split
  · exact refused
  · simp only
    split
    · exact refused
    · exact done (.setPool (.refl s))

theorem rebalance_refusedOrRaises : s.refusedOrRaises (rebalance p s) := by
  unfold rebalance
  split
  · exact refused
  · split
    · exact done (.runRound (.refl s))
    · exact refused

/-! ### The requests of the translator and of the clock -/

theorem rangeSet_refusedOrRaises : s.refusedOrRaises (rangeSet p s) := by
  unfold rangeSet writeRange
  split
  · split
    · split
      · exact refused
      · exact done (.of_link rfl)
    · exact refused
  · exact refused

theorem mapSet_refusedOrRaises : s.refusedOrRaises (mapSet p s) := by
  unfold mapSet
  simp only
  split
  · exact refused
  · split
    · exact refused
    · exact done (.of_link rfl)

theorem clockSet_refusedOrRaises : s.refusedOrRaises (clockSet p s) := by
  unfold clockSet
  split
  · exact refused
  · exact done (.of_link rfl)

/-! ### The requests of the log and of the Duty Program Unit -/

theorem readLog_refusedOrRaises : s.refusedOrRaises (readLog p s) :=
  done (.of_link rfl)

theorem progLoadFirst_refusedOrRaises : s.refusedOrRaises (progLoadFirst p s) := by
  unfold progLoadFirst
  split
  · exact refused
  · split
    · exact refused
    · split
      · exact refused
      · split
        · split
          · unfold loadFirst
            split
            · exact refused
            · split
              · exact refused
              · exact clamped (.of_link rfl)
          · exact refused
        · exact refused

theorem progLoadNext_refusedOrRaises : s.refusedOrRaises (progLoadNext p s) := by
  unfold progLoadNext
  split
  · exact refused
  · split
    · exact refused
    · split
      · exact refused
      · split
        · exact refused
        · split
          · exact refused
          · exact clamped (.of_link rfl)

theorem progStart_refusedOrRaises : s.refusedOrRaises (progStart p s) := by
  unfold progStart
  split
  · exact refused
  · split
    · exact refused
    · split
      · exact refused
      · exact done ((keptByDrive_raisesTo s).startRun _ (.refl s))

theorem progStop_refusedOrRaises : s.refusedOrRaises (progStop p s) := by
  unfold progStop
  split
  · exact refused
  · split
    · exact done ((keptByDrive_raisesTo s).stopRun _ (.refl s))
    · exact refused

/-! ### Every body, and every execution -/

/-- What serving a request with the transmit order empty comes to: the queue as it was, room for the reply (R182), and either an
acceptance or the state as it was. -/
structure State.served (s : State) (r : Answer × State) : Prop where
  queue : r.2.link.queue = s.link.queue
  room : r.2.link.tx.length + r.2.notPending < Config.transmitLimit
  effect : r.1.status.accepts ∨ r.2 = s

theorem State.refusedOrRaises.served {r : Answer × State} (h : s.refusedOrRaises r) (htx : s.link.tx = []) : s.served r where
  queue := h.raisesTo.queue
  room := by
    have hroom := h.raisesTo.room
    have hkinds := notPending_le s
    have hmax : Config.transmitLimit = 16 := rfl
    rw [htx, List.length_nil] at hroom
    omega
  effect := h.symm.imp And.left id

/-- A body that is accepted and makes at most one frame ready. -/
theorem served_of_done {data : List Byte} {t : State} (hqueue : t.link.queue = s.link.queue) (htx : t.link.tx.length ≤ 1) :
    s.served (⟨.done, data⟩, t) where
  queue := hqueue
  room := by
    have hkinds := notPending_le t
    have hmax : Config.transmitLimit = 16 := rfl
    simp only
    omega
  effect := .inl (.inl rfl)

theorem noticeMask_served (htx : s.link.tx = []) : s.served (noticeMask p s) := by
  unfold noticeMask
  simp only
  split
  · exact served_of_done rfl (by rw [htx]; exact Nat.zero_le _)
  · exact served_of_done rfl (by rw [makeReady_tx, htx]; rfl)

/-- Every body serves its request. -/
theorem requestBody_served {i : Instr} {body : List Byte → State → Answer × State} (h : Instr.requestBody i = some body)
    (p : List Byte) (htx : s.link.tx = []) : s.served (body p s) := by
  have keeps := fun (body : List Byte → State → Answer × State) (hb : (body p s).2 = s) =>
    State.refusedOrRaises.served (r := body p s) (.inl hb) htx
  have writes {t : State} {data : List Byte} (hqueue : t.link.queue = s.link.queue) (ht : t.link.tx = s.link.tx) :
      s.served (⟨.done, data⟩, t) := served_of_done hqueue (by rw [ht, htx]; exact Nat.zero_le _)
  cases i <;> cases h
  case badKind => exact keeps _ rfl
  case outletSet => exact outletSet_refusedOrRaises.served htx
  case outletDrop => exact outletDrop_refusedOrRaises.served htx
  case profileSet => exact profileSet_refusedOrRaises.served htx
  case barSet => exact barSet_refusedOrRaises.served htx
  case demand => exact demand_refusedOrRaises.served htx
  case rehome => exact rehome_refusedOrRaises.served htx
  case faultClear => exact faultClear_refusedOrRaises.served htx
  case poolSet => exact poolSet_refusedOrRaises.served htx
  case profileSwap => exact profileSwap_refusedOrRaises.served htx
  case supply => exact supply_refusedOrRaises.served htx
  case rebalance => exact rebalance_refusedOrRaises.served htx
  case rangeSet => exact rangeSet_refusedOrRaises.served htx
  case mapSet => exact mapSet_refusedOrRaises.served htx
  case progLoadFirst => exact progLoadFirst_refusedOrRaises.served htx
  case progLoadNext => exact progLoadNext_refusedOrRaises.served htx
  case progStart => exact progStart_refusedOrRaises.served htx
  case progStop => exact progStop_refusedOrRaises.served htx
  case clockSet => exact clockSet_refusedOrRaises.served htx
  case readOutlet => exact keeps _ (readOutlet_snd ..)
  case readPool => exact keeps _ (readPool_snd ..)
  case readProg => exact keeps _ (readProg_snd ..)
  case readSensors => exact keeps _ (readSensors_snd ..)
  case readLog => exact readLog_refusedOrRaises.served htx
  case readStatus => exact keeps _ rfl
  case noticeAck => exact writes rfl rfl
  case noticeMask => exact noticeMask_served htx
  case reset => exact writes rfl rfl

/-- What becomes of the head frame, in one form for a payload that fits and for one that does not (R180). -/
theorem exec_serves {f : Frame} {rest : List Frame} (h : s.takes f rest) : ∃ r : Answer × State,
    (s.dequeue rest).served r ∧ exec (requestRow f) s = .next (r.2.answered f r.1) := by
  obtain ⟨body, hbody⟩ := requestRow_requestBody f
  obtain ⟨-, htx, -⟩ := id h
  rw [exec_of_requestBody hbody, request_takes h rfl]
  split
  · exact ⟨_, requestBody_served hbody f.payload htx, rfl⟩
  · exact ⟨(.refuse .badLength, s.dequeue rest), State.refusedOrRaises.refused.served htx, rfl⟩

/-- Settles O13: the body of the row that the head frame calls for answers, and leaves the queue as it is. -/
theorem refusalChangesNothingElse : Obligations.RefusalChangesNothingElse := by
  unfold Obligations.RefusalChangesNothingElse
  intro s f rest h
  obtain ⟨⟨a, t⟩, hserved, he⟩ := exec_serves h
  refine ⟨_, a, he, hserved.queue, List.getLast?_concat, ?_⟩
  rcases hserved.effect with (hdone | hclamped) | hsame
  · exact .inl hdone
  · exact .inr (.inl hclamped)
  · exact .inr (.inr (by rw [hsame]))

end Sys2Proof.Machine
end

section
/-! Every step keeps the request queue and the transmit order within their limits (R179, R182). -/

namespace Sys2Proof.Machine

variable {s t : State}

/-! ### Frames that come and go -/

theorem State.linkBounded.congr (h : s.linkBounded) (hq : t.link.queue = s.link.queue) (ht : t.link.tx = s.link.tx)
    (hn : t.link.notices = s.link.notices) : t.linkBounded := by
  unfold State.linkBounded
  rw [hq, ht, notPending_congr hn]
  exact h

theorem State.raisesTo.linkBounded (h : s.raisesTo t) (hs : s.linkBounded) : t.linkBounded :=
  ⟨h.queue.symm ▸ hs.1, h.room.trans hs.2⟩

/-- A frame joins a queue of fewer than 4, or is answered while fewer than 6 frames are ready: with the 8 kinds that leaves room. -/
theorem handFrame_keeps_linkBounded (f : Frame) (h : s.linkBounded) : (handFrame f s).linkBounded := by
  obtain ⟨hqueue, htx⟩ := h
  have hkinds := notPending_le s
  unfold handFrame
  split
  · next hroom =>
    refine ⟨?_, htx⟩
    rw [List.length_append]
    exact hroom
  · split
    · next hready =>
      have hlimits : Config.queueFullLimit + 8 ≤ Config.transmitLimit := by decide
      refine ⟨hqueue, ?_⟩
      rw [makeReady_tx, List.length_append, List.length_singleton]
      have hsame : (makeReady (replyTo f (.refuse .queueFull)) s).notPending = s.notPending := notPending_congr rfl
      omega
    · exact ⟨hqueue, htx⟩

theorem receive_keeps_linkBounded (bs : List Byte) (h : s.linkBounded) : (receive bs s).linkBounded :=
  List.foldlRecOn (motive := State.linkBounded) _ _ (h.congr rfl rfl rfl) fun _ hu f _ => handFrame_keeps_linkBounded f hu

theorem frameArrival_keeps_linkBounded (bytes : List Byte) (h : s.linkBounded) : (frameArrival bytes s).linkBounded := by
  unfold frameArrival
  split
  · exact h
  · split
    · exact receive_keeps_linkBounded _ h
    · exact receive_keeps_linkBounded _ h

theorem gapTimerExpiry_keeps_linkBounded (h : s.linkBounded) : (gapTimerExpiry s).linkBounded := by
  unfold gapTimerExpiry
  split
  · exact h
  · split
    · exact receive_keeps_linkBounded _ h
    · exact h

theorem afterReset_linkBounded (speed : LinkSpeed) (bho : Table Bool 6) (olim clim : Table Bool 48) (n : Nat)
    (pending : List Instr) : (afterReset speed bho olim clim n pending).linkBounded :=
  ⟨Nat.zero_le _, (Nat.zero_add _).trans_le ((notPending_le _).trans (by decide))⟩

theorem frameSent_keeps_linkBounded (h : s.linkBounded) : (frameSent s).linkBounded := by
  unfold frameSent
  split
  · exact h
  · next f rest htx =>
    split
    · exact afterReset_linkBounded ..
    · obtain ⟨hqueue, hroom⟩ := h
      rw [htx, List.length_cons] at hroom
      exact ⟨hqueue, (Nat.add_le_add_right (Nat.le_succ _) _).trans hroom⟩

/-- A request takes the head frame off the queue and finds the transmit order empty; its body leaves room for the reply. -/
theorem execute_keeps_linkBounded {row : Instr} {body : List Byte → State → Answer × State}
    (hbody : Instr.requestBody row = some body) (h : s.linkBounded) : (execute row body s).linkBounded := by
  have answered {r : Answer × State} {f : Frame} {rest : List Frame} (hq : s.link.queue = f :: rest)
      (hr : (s.dequeue rest).served r) : (r.2.answered f r.1).linkBounded := by
    have hroom := hr.room
    have hsame : (r.2.answered f r.1).notPending = r.2.notPending := notPending_congr rfl
    refine ⟨?_, ?_⟩
    · have hqueue := h.1
      rw [hq, List.length_cons] at hqueue
      rw [State.answered, makeReady_queue, hr.queue]
      exact (Nat.le_succ _).trans hqueue
    · rw [hsame, State.answered, makeReady_tx, List.length_append, List.length_singleton]
      omega
  rcases execute_cases row body s with e | ⟨f, rest, htx, hq, -, -, e⟩ | ⟨f, rest, htx, hq, -, -, e⟩
  · rwa [e]
  · rw [e]
    exact answered (r := (.refuse .badLength, s.dequeue rest)) hq (State.refusedOrRaises.refused.served htx)
  · rw [e]
    exact answered hq (requestBody_served hbody f.payload htx)

/-! ### Every command, and every step -/

theorem exec_keeps_linkBounded {i : Instr} (h : s.linkBounded) (ht : exec i s = .next t) : t.linkBounded := by
  have event := fun (f : State → State) (hf : (f s).linkBounded) (ht : running f s = .next t) => running_keeps h hf ht
  have raises := fun (f : State → State) (hf : s.raisesTo (f s)) => event f (hf.linkBounded h)
  have drive := keptByDrive_raisesTo s
  cases hbody : Instr.requestBody i with
  | some body =>
    rw [exec_of_requestBody hbody] at ht
    exact event _ (execute_keeps_linkBounded hbody h) ht
  | none =>
    cases i with
    | frameArrival bytes => exact event _ (frameArrival_keeps_linkBounded bytes h) ht
    | gapTimerExpiry => exact event _ (gapTimerExpiry_keeps_linkBounded h) ht
    | frameSent => exact event _ (frameSent_keeps_linkBounded h) ht
    | rstnAsserted => cases ht; exact h.congr rfl rfl rfl
    | hardwareReset => cases ht; exact afterReset_linkBounded ..
    | roundTimerExpiry p => exact raises _ (.roundTimerExpiry p (.refl s)) ht
    | capacityStalenessExpiry => exact raises _ (.capacityStalenessExpiry (.refl s)) ht
    | stalenessTimerExpiry c => exact raises _ (.stalenessTimerExpiry c (.refl s)) ht
    | warmTimerExpiry c => exact raises _ (.of_link rfl) ht
    | sampleEvent i r => exact raises _ (.sampleEvent i r (.refl s)) ht
    | clockTick => exact event _ ((State.raisesTo.clockTick s).linkBounded (h.congr rfl rfl rfl)) ht
    | moveTimerExpiry c => exact raises _ (drive.moveTimerExpiry c (.refl s)) ht
    | checkTimerExpiry c => exact raises _ (drive.checkTimerExpiry c (.refl s)) ht
    | pauseTimerExpiry c => exact raises _ (drive.pauseTimerExpiry c (.refl s)) ht
    | limitEvent c line active => cases ht; exact (State.raisesTo.limitEvent c line active (.refl s)).linkBounded h
    | bhoAssertion b => cases ht; exact (State.raisesTo.bhoAssertion b (.refl s)).linkBounded h
    | bhoRelease b => cases ht; exact (State.raisesTo.bhoRelease b (.refl s)).linkBounded h
    | reachTimerExpiry i => exact raises _ (.reachTimerExpiry i (.refl s)) ht
    | holdTimerExpiry i => exact raises _ (.holdTimerExpiry i (.refl s)) ht
    | gapTimerExpiryProg i => exact raises _ (.gapTimerExpiryProg i (.refl s)) ht
    | _ => cases hbody

/-- Settles O56: a request finds the transmit order empty, a QUEUE_FULL reply finds fewer than 6 frames in it, and every other frame
that becomes ready is the one that its kind could still send. -/
theorem stepKeepsLinkBounded : Obligations.StepKeepsLinkBounded := by
  unfold Obligations.StepKeepsLinkBounded
  intro s t h ht
  have hidle : (idle s).linkBounded := by
    unfold idle
    split
    · exact h.congr rfl rfl rfl
    · exact h
  unfold step at ht
  split at ht
  · cases ht
    exact hidle
  · next c rest _ => exact exec_keeps_linkBounded (s := { s with pending := rest }) (h.congr rfl rfl rfl) ht

end Sys2Proof.Machine
end

section
/-! Which frames are executed, and which are refused before their body is reached (R180). -/

namespace Sys2Proof.Machine

variable {s : State} {f : Frame} {rest : List Frame} {p : List Byte}

/-! ### A request out of its turn -/

/-- No execution takes place while a frame is ready, with an empty queue, or for another row than the head frame's. -/
theorem execute_waits {row : Instr} (body : List Byte → State → Answer × State)
    (h : s.link.tx ≠ [] ∨ s.link.queue = [] ∨ ∀ f, s.link.queue.head? = some f → requestRow f ≠ row) :
    execute row body s = s := by
  rcases execute_cases row body s with e | ⟨f, rest, htx, hq, hrow, -⟩ | ⟨f, rest, htx, hq, hrow, -⟩
  · exact e
  all_goals
    rcases h with h | h | h
    · exact absurd htx h
    · exact absurd (hq.symm.trans h) (List.cons_ne_nil _ _)
    · exact absurd hrow (h f (by rw [hq, List.head?_cons]))

theorem running_unchanged {g : State → State} (h : g s = s) : running g s = .next s := by
  rw [running, h, ite_self]

/-! ### The row of a frame -/

theorem requestRow_badKind (h : f.kind = 0 ∨ 0x1A < f.kind.toNat) : requestRow f = .badKind := by
  have hrange : ∀ e ∈ catalogue, 1 ≤ e.1 ∧ e.1 ≤ 0x1A := by decide
  have hout : f.kind.toNat < 1 ∨ 0x1A < f.kind.toNat := h.imp_left fun e => by rw [e]; decide
  have hnone : catalogue.find? (fun e => e.1 == f.kind.toNat) = none := by
    refine List.find?_eq_none.2 fun e he hk => ?_
    have := hrange e he
    have : e.1 = f.kind.toNat := eq_of_beq hk
    omega
  have hload : f.kind.toNat ≠ progLoadKind := by
    simp only [progLoadKind]
    omega
  rw [requestRow_of_kind rfl hload, kindRow, hnone]

theorem requestRow_progLoadNext (hk : f.kind = 0x0E) (hpart : readByte f.payload 1 = 1) : requestRow f = .progLoadNext :=
  if_pos ⟨by rw [hk]; rfl, hpart⟩

theorem requestRow_progLoadFirst (hk : f.kind = 0x0E) (hpart : readByte f.payload 1 ≠ 1) : requestRow f = .progLoadFirst := by
  rw [requestRow, if_neg (fun h => hpart h.2), hk]
  rfl

/-! ### The lengths of 11.4 -/

theorem fits_demand_eq_false (h : ∀ k, 1 ≤ k → k ≤ 16 → p.length ≠ 4 * k) : fits .demand p = false := by
  by_contra hfit
  simp only [Bool.not_eq_false, fits, Bool.and_eq_true, beq_iff_eq, decide_eq_true_eq] at hfit
  exact h (p.length / 4) (by omega) (by omega) (by omega)

theorem fits_mapSet_eq_false (h : ∀ k, k ≤ 16 → p.length ≠ 1 + 2 * k) : fits .mapSet p = false := by
  by_contra hfit
  simp only [Bool.not_eq_false, fits, Bool.and_eq_true, beq_iff_eq, decide_eq_true_eq] at hfit
  exact h (p.length / 2) (by omega) (by omega)

theorem fitsFirst_eq_false {n : Nat} (h : ∀ k, k ≤ 12 → n ≠ 8 + 9 * k) : fitsFirst n = false := by
  by_contra hfit
  simp only [Bool.not_eq_false, fitsFirst, Bool.and_eq_true, beq_iff_eq, decide_eq_true_eq] at hfit
  exact h ((n - 8) / 9) (by omega) (by omega)

theorem fitsNext_eq_false {n : Nat} (h : ∀ k, 1 ≤ k → k ≤ 12 → n ≠ 2 + 9 * k) : fitsNext n = false := by
  by_contra hfit
  simp only [Bool.not_eq_false, fitsNext, Bool.and_eq_true, beq_iff_eq, decide_eq_true_eq] at hfit
  exact h ((n - 2) / 9) (by omega) (by omega) (by omega)

/-- POOL-SET by its pool code: 16 bytes for STEAM, 14 for an HW pool, either for an unknown code. -/
theorem fits_poolSet_eq_false (h : (p.length ≠ 16 ∧ p.length ≠ 14) ∨ (readByte p 0 = 0 ∧ p.length ≠ 16) ∨
    ((readByte p 0 = 1 ∨ readByte p 0 = 2) ∧ p.length ≠ 14)) : fits .poolSet p = false := by
  simp only [fits]
  split
  · exact beq_false_of_ne (by omega)
  · exact beq_false_of_ne (by omega)
  · exact beq_false_of_ne (by omega)
  · next h₀ h₁ h₂ =>
    obtain ⟨hsteam, hhw⟩ : p.length ≠ 16 ∧ p.length ≠ 14 := by
      rcases h with hn | ⟨hcode, -⟩ | ⟨hcode | hcode, -⟩
      · exact hn
      · exact absurd hcode h₀
      · exact absurd hcode h₁
      · exact absurd hcode h₂
    exact Bool.or_eq_false_iff.2 ⟨beq_false_of_ne hsteam, beq_false_of_ne hhw⟩

/-- A PROG-LOAD with part code 1 is a NEXT part, with part code 0 a FIRST part, and with another of either length. -/
theorem fits_progLoad_eq_false (hk : f.kind = 0x0E)
    (hfirst : readByte f.payload 1 = 1 ∨ ∀ k, k ≤ 12 → f.payload.length ≠ 8 + 9 * k)
    (hnext : readByte f.payload 1 = 0 ∨ ∀ k, 1 ≤ k → k ≤ 12 → f.payload.length ≠ 2 + 9 * k) :
    fits (requestRow f) f.payload = false := by
  by_cases hpart : readByte f.payload 1 = 1
  · rw [requestRow_progLoadNext hk hpart]
    exact fitsNext_eq_false (hnext.resolve_left (by omega))
  · rw [requestRow_progLoadFirst hk hpart]
    have h₁ : fitsFirst f.payload.length = false := fitsFirst_eq_false (hfirst.resolve_left hpart)
    have h₂ : (readByte f.payload 1 != 0 && fitsNext f.payload.length) = false := by
      rcases hnext with hzero | hlen
      · simp [hzero]
      · rw [fitsNext_eq_false hlen, Bool.and_false]
    simp only [fits, h₁, h₂, Bool.or_self]

theorem fits_eq_false_of_kind {k : Byte} (hk : f.kind = k) (hload : k.toNat ≠ progLoadKind)
    (h : fits (kindRow k.toNat) f.payload = false) : fits (requestRow f) f.payload = false := by
  rwa [requestRow_of_kind hk hload]

/-! ### The statement -/

theorem exec_badKind (h : s.takes f rest) (hk : f.kind = 0 ∨ 0x1A < f.kind.toNat) :
    exec .badKind s = .next (s.refused f rest .badKind) :=
  request_answers h (requestRow_badKind hk) rfl rfl

theorem exec_badLength (h : s.takes f rest) (hfit : fits (requestRow f) f.payload = false) :
    exec (requestRow f) s = .next (s.refused f rest .badLength) := by
  obtain ⟨body, hbody⟩ := requestRow_requestBody f
  rw [exec_of_requestBody hbody, request_takes h rfl, hfit, if_neg Bool.false_ne_true]

/-- Settles O12: no execution out of turn, then the KIND, then the length by the KIND. -/
theorem executionWaitsAndChecksFrame : Obligations.ExecutionWaitsAndChecksFrame := by
  unfold Obligations.ExecutionWaitsAndChecksFrame
  refine ⟨fun s g hturn => ?_, fun s f rest h => ⟨exec_badKind h, fun _ _ => exec_badLength h, ?_⟩⟩
  · obtain ⟨body, hbody⟩ := requestRow_requestBody g
    rw [exec_of_requestBody hbody]
    exact running_unchanged (execute_waits body hturn)
  · rintro n code part rfl rfl rfl hlen
    refine exec_badLength h ?_
    rcases hlen with ⟨hk, hn⟩ | ⟨hk, hn⟩ | ⟨hk, hn⟩ | ⟨hk, hn⟩ | ⟨hk, hn⟩ | ⟨hk, hn⟩ | ⟨hk, hn⟩ | ⟨hk, hn⟩ | ⟨hk, hn⟩ |
      ⟨hk, hn⟩ | ⟨hk, hn⟩ | ⟨hk, hfirst, hnext⟩ | ⟨hk, hn⟩ | ⟨hk, hn⟩
    · exact fits_eq_false_of_kind hk (by decide) (beq_false_of_ne hn)
    · rcases hk with hk | hk | hk | hk | hk | hk <;> exact fits_eq_false_of_kind hk (by decide) (beq_false_of_ne hn)
    · exact fits_eq_false_of_kind hk (by decide) (beq_false_of_ne hn)
    · exact fits_eq_false_of_kind hk (by decide) (beq_false_of_ne hn)
    · exact fits_eq_false_of_kind hk (by decide) (fits_demand_eq_false hn)
    · exact fits_eq_false_of_kind hk (by decide) (fits_poolSet_eq_false (.inl hn))
    · exact fits_eq_false_of_kind hk (by decide) (fits_poolSet_eq_false (.inr (.inl hn)))
    · exact fits_eq_false_of_kind hk (by decide) (fits_poolSet_eq_false (.inr (.inr hn)))
    · rcases hk with hk | hk | hk | hk | hk | hk | hk | hk <;> exact fits_eq_false_of_kind hk (by decide) (beq_false_of_ne hn)
    · exact fits_eq_false_of_kind hk (by decide) (beq_false_of_ne hn)
    · exact fits_eq_false_of_kind hk (by decide) (fits_mapSet_eq_false hn)
    · exact fits_progLoad_eq_false hk hfirst hnext
    · exact fits_eq_false_of_kind hk (by decide) (beq_false_of_ne hn)
    · rcases hk with hk | hk | hk <;> exact fits_eq_false_of_kind hk (by decide) (beq_false_of_ne hn)

end Sys2Proof.Machine
end

section
/-! The receiver (R177 to R179): what the bytes behind a START come to, and that a run of bytes is examined in the same way whole and in
two parts. -/

namespace Sys2Proof.Machine

/-! ### The bytes behind a START -/

/-- Bytes that follow do not change a judgement, and stand behind a good frame. -/
def Parsed.append (ys : List Byte) : Parsed → Parsed
  | .more => .more
  | .discard => .discard
  | .good f rest => .good f (rest ++ ys)

theorem parseFrame_append {xs : List Byte} (ys : List Byte) (h : parseFrame xs ≠ .more) :
    parseFrame (xs ++ ys) = (parseFrame xs).append ys := by
  cases xs with
  | nil => exact absurd rfl h
  | cons len tail =>
    simp only [parseFrame, List.cons_append] at h ⊢
    split
    · rfl
    · next hlen =>
      rw [if_neg hlen] at h
      have hlong : ¬tail.length < len.toNat + 2 := fun hshort => h (if_pos hshort)
      have hlong' : ¬(tail ++ ys).length < len.toNat + 2 := by
        rw [List.length_append]
        omega
      have hbody : (tail ++ ys).take len.toNat = tail.take len.toNat := List.take_append_of_le_length (by omega)
      have hcrc : ((tail ++ ys).drop len.toNat).take 2 = (tail.drop len.toNat).take 2 := by
        rw [List.drop_append_of_le_length (by omega), List.take_append_of_le_length (by rw [List.length_drop]; omega)]
      have hrest : (tail ++ ys).drop (len.toNat + 2) = tail.drop (len.toNat + 2) ++ ys :=
        List.drop_append_of_le_length (by omega)
      rw [if_neg hlong, if_neg hlong', hbody, hcrc, hrest]
      split <;> rfl

/-- A good frame leaves fewer bytes than there were. -/
theorem parseFrame_rest_length {xs rest : List Byte} {f : Frame} (h : parseFrame xs = .good f rest) : rest.length < xs.length := by
  cases xs with
  | nil => cases h
  | cons len tail =>
    simp only [parseFrame] at h
    split at h
    · cases h
    · split at h
      · cases h
      · split at h
        · cases h
          rw [List.length_drop, List.length_cons]
          omega
        · cases h

theorem parseFrame_badLen {len : Byte} (tail : List Byte) (h : len.toNat < 2 ∨ 120 < len.toNat) :
    parseFrame (len :: tail) = .discard :=
  if_pos h

/-- The LEN, as many bytes, and two behind them are a frame exactly where the two are the CRC of the others (R177). -/
theorem parseFrame_complete {len : Byte} {body crc : List Byte} (h₁ : 2 ≤ len.toNat) (h₂ : len.toNat ≤ 120)
    (hbody : body.length = len.toNat) (hcrc : crc.length = 2) : parseFrame (len :: (body ++ crc)) =
      if be16 (crc16 (len :: body)).toNat = crc then .good (frameOf body) [] else .discard := by
  have hlen : ¬(len.toNat < 2 ∨ 120 < len.toNat) := by omega
  have hlong : ¬(body ++ crc).length < len.toNat + 2 := by
    rw [List.length_append]
    omega
  have htake : (body ++ crc).take len.toNat = body := hbody ▸ List.take_left
  have hdrop : (body ++ crc).drop len.toNat = crc := hbody ▸ List.drop_left
  have hrest : (body ++ crc).drop (len.toNat + 2) = [] := by
    rw [← List.drop_drop, hdrop, List.drop_eq_nil_of_le hcrc.le]
  simp only [parseFrame, if_neg hlen, if_neg hlong, htake, hdrop, hrest, List.take_of_length_le hcrc.le]

/-- What stands behind the START of a well-formed frame is that frame. -/
theorem parseFrame_frameBody {f : Frame} (h : f.wellFormed = true) :
    parseFrame (frameBody f ++ be16 (crc16 (frameBody f)).toNat) = .good f [] := by
  have hlen : f.payload.length ≤ 118 := of_decide_eq_true h
  have hbyte : (byte (f.payload.length + 2)).toNat = f.payload.length + 2 := by
    rw [byte, BitVec.toNat_ofNat]
    omega
  refine (parseFrame_complete (len := byte (f.payload.length + 2)) (body := f.kind :: f.tag :: f.payload) (by omega) (by omega)
    hbyte.symm rfl).trans ?_
  exact if_pos rfl

/-! ### The scan of a run of bytes -/

/-- Rounds beyond the number of bytes make no difference. -/
theorem scan_eq_scanAll {n : Nat} {xs : List Byte} (h : xs.length < n) : scan n xs = scanAll xs := by
  suffices hany : ∀ (m n : Nat) (xs : List Byte), xs.length < m → xs.length < n → scan m xs = scan n xs from
    hany _ _ _ h (Nat.lt_succ_self _)
  intro m
  induction m with
  | zero => exact fun _ _ hm => absurd hm (Nat.not_lt_zero _)
  | succ m ih =>
    intro n xs hm hn
    obtain ⟨n, rfl⟩ := Nat.exists_eq_succ_of_ne_zero (Nat.ne_zero_of_lt hn)
    cases xs with
    | nil => rfl
    | cons b bs =>
      rw [List.length_cons] at hm hn
      have hbs : scan m bs = scan n bs := ih n bs (by omega) (by omega)
      simp only [scan, hbs]
      split
      · split
        · rfl
        · rfl
        · next hgood =>
          have hless := parseFrame_rest_length hgood
          rw [ih n _ (by omega) (by omega)]
      · rfl

theorem scanAll_other {b : Byte} (bs : List Byte) (h : b ≠ Config.startByte) : scanAll (b :: bs) = scanAll bs :=
  if_neg h

theorem scanAll_more {bs : List Byte} (h : parseFrame bs = .more) :
    scanAll (Config.startByte :: bs) = { frames := [], buf := some bs } := by
  simp only [scanAll, List.length_cons, scan, h, if_true]

theorem scanAll_discard {bs : List Byte} (h : parseFrame bs = .discard) : scanAll (Config.startByte :: bs) = scanAll bs := by
  simp only [scanAll, List.length_cons, scan, h, if_true]

theorem scanAll_good {bs rest : List Byte} {f : Frame} (h : parseFrame bs = .good f rest) :
    scanAll (Config.startByte :: bs) = (scanAll rest).cons f := by
  have hless := parseFrame_rest_length h
  rw [← scan_eq_scanAll (xs := rest) (n := bs.length + 1) (by omega)]
  simp only [scanAll, List.length_cons, scan, h, if_true]

/-- The bytes that are examined again when more arrive: those of the frame being received, from its START. -/
def resumed : Option (List Byte) → List Byte
  | none => []
  | some taken => Config.startByte :: taken

/-- The bytes that follow are examined behind those of the frame being received (R178). -/
theorem scanAll_append (xs ys : List Byte) : scanAll (xs ++ ys) =
    { frames := (scanAll xs).frames ++ (scanAll (resumed (scanAll xs).buf ++ ys)).frames,
      buf := (scanAll (resumed (scanAll xs).buf ++ ys)).buf } := by
  induction hn : xs.length using Nat.strong_induction_on generalizing xs with
  | _ n ih =>
    cases xs with
    | nil => rfl
    | cons b bs =>
      rw [List.length_cons] at hn
      have hbs := ih bs.length (by omega) bs rfl
      rw [List.cons_append]
      by_cases hb : b = Config.startByte
      · subst hb
        cases hp : parseFrame bs with
        | more => rw [scanAll_more hp]; rfl
        | discard =>
          have hp' : parseFrame (bs ++ ys) = .discard := by rw [parseFrame_append ys (by simp [hp]), hp]; rfl
          rw [scanAll_discard hp, scanAll_discard hp', hbs]
        | good f rest =>
          have hless := parseFrame_rest_length hp
          have hp' : parseFrame (bs ++ ys) = .good f (rest ++ ys) := by rw [parseFrame_append ys (by simp [hp]), hp]; rfl
          rw [scanAll_good hp, scanAll_good hp', ih rest.length (by omega) rest rfl]
          rfl
      · rw [scanAll_other bs hb, scanAll_other (bs ++ ys) hb, hbs]

/-- Where there is no START there is no frame. -/
theorem scanAll_noStart {xs : List Byte} (h : Config.startByte ∉ xs) : scanAll xs = { frames := [], buf := none } := by
  induction xs with
  | nil => rfl
  | cons b bs ih =>
    obtain ⟨hb, hbs⟩ := not_or.1 (mt List.mem_cons.2 h)
    rw [scanAll_other bs (Ne.symm hb), ih hbs]

theorem scanAll_behindJunk {junk : List Byte} (h : Config.startByte ∉ junk) (xs : List Byte) :
    scanAll (junk ++ xs) = scanAll xs := by
  rw [scanAll_append, scanAll_noStart h]
  rfl

/-- The bytes of a well-formed frame are that frame, and nothing is left of them. -/
theorem scanAll_frameBytes {f : Frame} (h : f.wellFormed = true) : scanAll (frameBytes f) = { frames := [f], buf := none } := by
  rw [frameBytes, scanAll_good (parseFrame_frameBody h)]
  rfl

variable {s : State}

/-! ### A good frame handed on (R179) -/

theorem handFrame_joins (f : Frame) (h : s.link.queue.length < 4) :
    handFrame f s = { s with link := { s.link with queue := s.link.queue ++ [f] } } :=
  if_pos h

theorem handFrame_full (f : Frame) (h : 4 ≤ s.link.queue.length) (htx : s.link.tx.length < 6) :
    handFrame f s = makeReady (replyTo f (.refuse .queueFull)) s :=
  (if_neg (Nat.not_lt.2 h)).trans (if_pos htx)

theorem handFrame_dropped (f : Frame) (h : 4 ≤ s.link.queue.length) (htx : 6 ≤ s.link.tx.length) : handFrame f s = s :=
  (if_neg (Nat.not_lt.2 h)).trans (if_neg (Nat.not_lt.2 htx))

/-! ### A run of bytes received -/

/-- The receiver's condition, with the gap timer that goes with it. -/
def State.withBuf (s : State) (buf : Option (List Byte)) : State :=
  { s with link := { s.link with rxBuf := buf, rxGap := gapTimerFor buf } }

/-- Handing a frame on does not bear on the receiver. -/
theorem handFrame_withBuf (f : Frame) (s : State) (buf : Option (List Byte)) :
    handFrame f (s.withBuf buf) = (handFrame f s).withBuf buf := by
  rcases Nat.lt_or_ge s.link.queue.length 4 with hqueue | hqueue
  · rw [handFrame_joins f hqueue, handFrame_joins (s := s.withBuf buf) f hqueue]
    rfl
  · rcases Nat.lt_or_ge s.link.tx.length 6 with htx | htx
    · rw [handFrame_full f hqueue htx, handFrame_full (s := s.withBuf buf) f hqueue htx]
      rfl
    · rw [handFrame_dropped f hqueue htx, handFrame_dropped (s := s.withBuf buf) f hqueue htx]

theorem foldl_handFrame_withBuf (fs : List Frame) (s : State) (buf : Option (List Byte)) :
    fs.foldl (fun u f => handFrame f u) (s.withBuf buf) = (fs.foldl (fun u f => handFrame f u) s).withBuf buf :=
  List.foldl_hom (fun u : State => u.withBuf buf) fun u f => handFrame_withBuf f u buf

/-- What a run of bytes comes to: its good frames handed on, and the condition behind it. -/
theorem receive_eq {bs : List Byte} {x : Scan} (h : scanAll bs = x) (s : State) :
    receive bs s = (x.frames.foldl (fun u f => handFrame f u) s).withBuf x.buf := by
  subst h
  exact foldl_handFrame_withBuf ..

theorem receive_rstLow (bs : List Byte) (s : State) : (receive bs s).rstLow = s.rstLow := by
  rw [receive_eq rfl]
  refine List.foldlRecOn (motive := fun u : State => u.rstLow = s.rstLow) _ _ rfl fun u hu f _ => Eq.trans ?_ hu
  unfold handFrame
  split
  · rfl
  · split <;> rfl

theorem frameArrival_eq {xs : List Byte} (h : xs ≠ []) (s : State) :
    frameArrival xs s = receive (resumed s.link.rxBuf ++ xs) s := by
  unfold frameArrival
  rw [List.isEmpty_eq_false_iff.2 h, if_neg Bool.false_ne_true]
  split
  · next e => rw [e]; rfl
  · next e => rw [e]; rfl

/-- Two runs, one received after the other. -/
theorem receive_receive (xs ys : List Byte) (s : State) :
    receive (resumed (receive xs s).link.rxBuf ++ ys) (receive xs s) = receive (xs ++ ys) s := by
  have hbuf : (receive xs s).link.rxBuf = (scanAll xs).buf := by
    rw [receive_eq rfl]
    rfl
  have hfold (fs : List Frame) : fs.foldl (fun u f => handFrame f u) (receive xs s) =
      (fs.foldl (fun u f => handFrame f u) ((scanAll xs).frames.foldl (fun u f => handFrame f u) s)).withBuf (scanAll xs).buf := by
    rw [receive_eq rfl, foldl_handFrame_withBuf]
  rw [hbuf, receive_eq (scanAll_append xs ys), receive_eq rfl, hfold, List.foldl_append]
  rfl

/-- A receiver that hunts and stays hunting. -/
theorem withBuf_hunting (h : s.link.rxBuf = none) : s.withBuf none = { s with link := { s.link with rxGap := none } } := by
  unfold State.withBuf
  rw [← h]
  simp [gapTimerFor, h]


/-! ### The statements about the receiver -/

/-- Settles O10: the bytes that follow a run are examined behind what the run has left. -/
theorem arrivalMayBeSplit : Obligations.ArrivalMayBeSplit := by
  unfold Obligations.ArrivalMayBeSplit
  intro s t xs ys hr hxs hys ht
  have hwhole : xs ++ ys ≠ [] := List.append_ne_nil_of_left_ne_nil hxs ys
  have hx : exec (.frameArrival xs) s = .next (receive (resumed s.link.rxBuf ++ xs) s) :=
    (running_next _ s hr).trans (by rw [frameArrival_eq hxs])
  obtain rfl : receive (resumed s.link.rxBuf ++ xs) s = t := by
    rw [hx] at ht
    exact Host.Outcome.next.inj ht
  have hr' := (receive_rstLow (resumed s.link.rxBuf ++ xs) s).trans hr
  calc exec (.frameArrival ys) (receive (resumed s.link.rxBuf ++ xs) s)
      = .next (frameArrival ys (receive (resumed s.link.rxBuf ++ xs) s)) := running_next _ _ hr'
    _ = .next (frameArrival (xs ++ ys) s) := by
      rw [frameArrival_eq hys, receive_receive, List.append_assoc, frameArrival_eq hwhole]
    _ = exec (.frameArrival (xs ++ ys)) s := (running_next _ s hr).symm

/-- A run that arrives at a hunting receiver and leaves it hunting. -/
theorem exec_frameArrival_hunting {xs : List Byte} {fs : List Frame} (hr : s.rstLow = false) (hbuf : s.link.rxBuf = none)
    (hxs : xs ≠ []) (hscan : scanAll xs = { frames := fs, buf := none }) : exec (.frameArrival xs) s =
      .next ((fs.foldl (fun u f => handFrame f u) s).withBuf none) := by
  refine (running_next _ s hr).trans (congrArg _ ?_)
  rw [frameArrival_eq hxs, hbuf]
  exact receive_eq hscan s

/-- Settles O8: the bytes of the frame are that frame alone, which is then handed on by the room in the queue and in the transmit
order. -/
theorem arrivingFrameIsHandedOn : Obligations.ArrivingFrameIsHandedOn := by
  unfold Obligations.ArrivingFrameIsHandedOn
  intro s f hr hbuf hf
  have arrives {t : State} (h : (handFrame f s).withBuf none = t) : exec (.frameArrival (frameBytes f)) s = .next t :=
    (exec_frameArrival_hunting hr hbuf (List.cons_ne_nil _ _) (scanAll_frameBytes hf)).trans (congrArg _ h)
  refine ⟨fun hqueue => arrives ?_, fun hqueue htx => arrives ?_, fun hqueue htx => arrives ?_⟩
  · rw [handFrame_joins f hqueue, withBuf_hunting (by exact hbuf)]
  · rw [handFrame_full f hqueue htx, withBuf_hunting (by exact hbuf)]
    rfl
  · rw [handFrame_dropped f hqueue htx, withBuf_hunting hbuf]

/-- Settles O9: the START is passed over, and behind it there is none. -/
theorem badFrameIsDiscarded : Obligations.BadFrameIsDiscarded := by
  unfold Obligations.BadFrameIsDiscarded
  intro s hr hbuf
  have discarded {bs : List Byte} (hbad : parseFrame bs = .discard) (hstart : Config.startByte ∉ bs) :
      exec (.frameArrival (Config.startByte :: bs)) s = .next { s with link := { s.link with rxGap := none } } := by
    rw [exec_frameArrival_hunting hr hbuf (List.cons_ne_nil _ _) ((scanAll_discard hbad).trans (scanAll_noStart hstart))]
    exact congrArg _ (withBuf_hunting hbuf)
  refine ⟨fun len more hlen hstart => discarded (parseFrame_badLen more hlen) ?_,
    fun len body crc h₁ h₂ hbody hcrc hwrong hstart => discarded ?_ hstart⟩
  · refine mt List.mem_cons.1 (not_or.2 ⟨?_, hstart⟩)
    rintro rfl
    revert hlen
    decide
  · rw [parseFrame_complete h₁ h₂ hbody hcrc, if_neg (Ne.symm hwrong)]

/-- Settles O11: an expiry that is due examines the bytes behind the START from HUNTING. -/
theorem gapExpiryExaminesAgain : Obligations.GapExpiryExaminesAgain := by
  unfold Obligations.GapExpiryExaminesAgain
  intro s hr
  have expires {t : State} (h : gapTimerExpiry s = t) : exec .gapTimerExpiry s = .next t :=
    (running_next _ s hr).trans (congrArg _ h)
  refine ⟨fun hidle => expires ?_, fun taken htaken hdue => ?_⟩
  · unfold gapTimerExpiry
    split
    · rfl
    · next taken htaken =>
      have hnot : s.link.rxGap ≠ some 0 := hidle.resolve_left (by simp [htaken])
      simp [timerDue, hnot]
  · have again {fs : List Frame} {t : State} (hscan : scanAll taken = { frames := fs, buf := none })
        (h : (fs.foldl (fun u f => handFrame f u) s).withBuf none = t) : exec .gapTimerExpiry s = .next t := by
      refine expires (Eq.trans ?_ h)
      rw [gapTimerExpiry, htaken, ← receive_eq hscan]
      simp [timerDue, hdue]
    refine ⟨fun hstart => again (scanAll_noStart hstart) rfl, fun junk f hbytes hjunk hf hqueue => ?_⟩
    refine again (fs := [f]) (by rw [hbytes, scanAll_behindJunk hjunk, scanAll_frameBytes hf]) ?_
    rw [List.foldl_cons, List.foldl_nil, handFrame_joins f hqueue]
    rfl

end Sys2Proof.Machine
end

section
/-! The two resets (R188, R189), the transmitter (R182), and the time while RSTn is low (R189). -/

namespace Sys2Proof.Machine

variable {s : State}

/-! ### The reset values -/

/-- Speed, input levels, timebase and waiting commands have no reset value; every block takes its own. -/
theorem afterReset_atReset (speed : LinkSpeed) (bho : Table Bool 6) (olim clim : Table Bool 48) (n : Nat)
    (pending : List Instr) : (afterReset speed bho olim clim n pending).atReset where
  link := ⟨rfl, rfl, rfl, rfl, rfl, rfl, rfl⟩
  ranges := reset_atReset.ranges
  map := reset_atReset.map
  outlets := reset_atReset.outlets
  positions := reset_atReset.positions
  motion := reset_atReset.motion
  pools := reset_atReset.pools
  steam := rfl
  hot := reset_atReset.hot
  log := rfl
  banks _ := rfl
  slots := reset_atReset.slots
  sensors := reset_atReset.sensors
  clock := rfl

/-- Settles O3: the reset values, and the speed by the two straps. -/
theorem hardwareResetLeavesResetValues : Obligations.HardwareResetLeavesResetValues := by
  unfold Obligations.HardwareResetLeavesResetValues
  intro s spd1 spd0
  exact ⟨_, rfl, afterReset_atReset .., rfl, rfl, rfl, rfl, rfl, rfl, by cases spd1 <;> cases spd0 <;> rfl⟩

/-! ### The transmitter, and the reset behind a reply -/

theorem exec_frameSent {t : State} (hr : s.rstLow = false) (h : frameSent s = t) : exec .frameSent s = .next t :=
  (running_next _ s hr).trans (congrArg _ h)

theorem frameSent_idle (h : s.link.tx = []) : frameSent s = s := by
  simp [frameSent, h]

theorem frameSent_ready {f : Frame} {rest : List Frame} (h : s.link.tx = f :: rest) : frameSent s =
    if s.link.resetDue then resetPart s else { s with link := { s.link with tx := rest } } := by
  simp only [frameSent, h]

/-- Settles O7, by whether a frame is ready. -/
theorem sentFrameLeavesTransmitOrder : Obligations.SentFrameLeavesTransmitOrder := by
  unfold Obligations.SentFrameLeavesTransmitOrder
  intro s hr
  refine ⟨fun hidle => exec_frameSent hr (frameSent_idle hidle), fun f rest hready hdue => exec_frameSent hr ?_⟩
  rw [frameSent_ready hready, hdue, if_neg Bool.false_ne_true]

/-- Settles O6: the request marks the reset, and the first frame sent with the mark set is followed by it. -/
theorem resetFollowsItsReply : Obligations.ResetFollowsItsReply := by
  unfold Obligations.ResetFollowsItsReply
  refine ⟨fun s f rest h hk hp => ?_, fun s f rest hr hready hdue => ⟨resetPart s, exec_frameSent hr ?_,
    afterReset_atReset .., rfl, rfl, rfl, rfl, rfl, rfl, rfl⟩⟩
  · exact request_answers h (requestRow_of_kind hk (by decide)) (by rw [hp]; rfl) rfl
  · rw [frameSent_ready hready, hdue, if_pos rfl]

/-! ### RSTn low -/

/-- Every block but the levels of the input lines is as it was. -/
def State.sameButInputs (s t : State) : Prop :=
  t = { s with drive := { s.drive with olim := t.drive.olim, clim := t.drive.clim },
               handoff := { s.handoff with bho := t.handoff.bho } }

theorem State.sameButInputs_refl (s : State) : s.sameButInputs s := rfl

theorem running_low (f : State → State) (h : s.rstLow = true) : running f s = .next s := by
  rw [running, if_pos h]

theorem limitEvent_low (c : Channel) (line : LimitLine) (active : Bool) (h : s.rstLow = true) :
    s.sameButInputs (limitEvent c line active s) := by
  unfold limitEvent
  simp only [h, if_true]
  split
  · exact s.sameButInputs_refl
  · cases line <;> rfl

theorem bhoAssertion_low (b : BankId) (h : s.rstLow = true) : s.sameButInputs (bhoAssertion b s) := by
  unfold bhoAssertion
  simp only [h, Bool.true_or, if_true]
  split
  · exact s.sameButInputs_refl
  · rfl

theorem bhoRelease_low (b : BankId) (h : s.rstLow = true) : s.sameButInputs (bhoRelease b s) := by
  unfold bhoRelease
  simp only [h, Bool.true_or, if_true]
  split
  · rfl
  · exact s.sameButInputs_refl

/-- No command but HARDWARE_RESET is taken while RSTn is low, though the input lines follow. -/
theorem exec_low {i : Instr} (h : s.rstLow = true) (hreset : ∀ spd1 spd0 : Bool, i ≠ .hardwareReset spd1 spd0) :
    ∃ t : State, exec i s = .next t ∧ s.sameButInputs t := by
  have idle {f : State → State} {g : Host.Outcome State Fault Refusal} (hg : g = running f s) :
      ∃ t : State, g = .next t ∧ s.sameButInputs t :=
    ⟨s, hg.trans (running_low f h), s.sameButInputs_refl⟩
  cases i with
  | hardwareReset spd1 spd0 => exact absurd rfl (hreset spd1 spd0)
  | rstnAsserted => exact ⟨_, rfl, by rw [← h]; rfl⟩
  | limitEvent c line active => exact ⟨_, rfl, limitEvent_low c line active h⟩
  | bhoAssertion b => exact ⟨_, rfl, bhoAssertion_low b h⟩
  | bhoRelease b => exact ⟨_, rfl, bhoRelease_low b h⟩
  | _ => exact idle rfl

/-- Settles O5: each output is gated by RSTn, and each command finds it low. -/
theorem lowRstnHoldsOutputsAndState : Obligations.LowRstnHoldsOutputsAndState := by
  unfold Obligations.LowRstnHoldsOutputsAndState
  refine ⟨fun s => rfl, fun t h => ⟨fun c => ?_, ?_, ?_, fun b => ?_⟩, fun s c h hreset => exec_low h hreset⟩
  · simp [State.openOutput, State.closeOutput, h]
  · simp [State.ltxOutput, h]
  · simp [State.attnOutput, h]
  · simp [State.bhaOutput, h]

end Sys2Proof.Machine
end

section
/-! The notice kinds: their raises (R183), ATTN (R184), and the two notice requests (R185, R186). A kind is one bit of each notice byte
(11.5). -/

namespace Sys2Proof.Machine

variable {s : State}

/-! ### The bit of a kind -/

/-- The place of a kind in every notice byte (11.5). -/
def NoticeKind.place : NoticeKind → Nat
  | .curtail => 0
  | .logLoss => 1
  | .program => 2
  | .travel => 3
  | .handoff => 4
  | .sensor => 5
  | .profile => 6
  | .stale => 7

theorem NoticeKind.bit_eq_twoPow (k : NoticeKind) : k.bit = BitVec.twoPow 8 k.place := by
  cases k <;> rfl

theorem NoticeKind.exists_place {i : Nat} (h : i < 8) : ∃ k : NoticeKind, k.place = i := by
  have hall : ∀ i : Fin 8, ∃ k ∈ noticeKinds, k.place = i.val := by decide
  obtain ⟨k, -, hk⟩ := hall ⟨i, h⟩
  exact ⟨k, hk⟩

theorem and_bit_eq_zero (x : Byte) (k : NoticeKind) : x &&& k.bit = 0 ↔ x.getLsbD k.place = false := by
  have hbit : BitVec.twoPow 8 k.place ≠ 0#8 := by cases k <;> decide
  rw [k.bit_eq_twoPow, BitVec.and_twoPow]
  cases x.getLsbD k.place with
  | false => simp
  | true => simpa using hbit

/-- A byte is 0 exactly where it holds no kind. -/
theorem byte_eq_zero_iff (x : Byte) : x = 0 ↔ ∀ k : NoticeKind, x.getLsbD k.place = false := by
  refine ⟨fun h k => by rw [h]; exact BitVec.getLsbD_zero, fun h => BitVec.eq_of_getLsbD_eq fun i hi => ?_⟩
  obtain ⟨k, rfl⟩ := NoticeKind.exists_place hi
  rw [h k]
  exact BitVec.getLsbD_zero.symm

theorem isPending_eq (s : State) (k : NoticeKind) : s.isPending k = s.link.notices.getLsbD k.place := by
  rw [State.isPending, Bool.eq_iff_iff, bne_iff_ne, Ne, and_bit_eq_zero, Bool.not_eq_false]

theorem isMasked_eq (s : State) (k : NoticeKind) : s.isMasked k = s.link.mask.getLsbD k.place := by
  rw [State.isMasked, Bool.eq_iff_iff, bne_iff_ne, Ne, and_bit_eq_zero, Bool.not_eq_false]

theorem NoticeKind.place_lt (k : NoticeKind) : k.place < 8 := by
  cases k <;> decide

/-- The kinds of one byte that are not of another. -/
theorem getLsbD_and_not (x y : Byte) (k : NoticeKind) :
    (x &&& ~~~y).getLsbD k.place = (x.getLsbD k.place && !y.getLsbD k.place) := by
  rw [BitVec.getLsbD_and, BitVec.getLsbD_not, decide_eq_true k.place_lt, Bool.true_and]

/-! ### NOTICE-MASK -/

theorem noticeMask_silent {b : Byte} (h : s.link.mask &&& ~~~b &&& s.link.notices = 0) : noticeMask [b] s =
    (⟨.done, [s.link.notices, b]⟩, { s with link := { s.link with mask := b } }) := by
  simp only [noticeMask, List.getD_cons_zero, if_pos h]
  rfl

theorem noticeMask_tells {b : Byte} (h : s.link.mask &&& ~~~b &&& s.link.notices ≠ 0) : noticeMask [b] s =
    (⟨.done, [s.link.notices, b]⟩, makeReady (noticeFrame s.link.notices b (s.link.mask &&& ~~~b &&& s.link.notices))
      { s with link := { s.link with mask := b } }) := by
  simp only [noticeMask, List.getD_cons_zero, if_neg h]
  rfl

/-! ### The statements about notices -/

/-- Settles O14: the three outcomes of a raise. -/
theorem raiseRule : Obligations.RaiseRule := by
  unfold Obligations.RaiseRule
  intro k s
  refine ⟨fun hp => ?_, fun hp hm => ?_, fun hp hm => ?_, fun j => raise_isPending k j s⟩
  · exact if_pos hp
  · simp only [raise, hp, hm, Bool.false_eq_true, if_false, if_true]
  · simp only [raise, hp, hm, Bool.false_eq_true, if_false]
    rfl

/-- Settles O15: the byte of the kinds that are pending and unmasked is not 0. -/
theorem attnShowsUnmaskedPending : Obligations.AttnShowsUnmaskedPending := by
  unfold Obligations.AttnShowsUnmaskedPending
  intro s
  rw [State.attnOutput, Bool.and_eq_true, Bool.not_eq_true', bne_iff_ne, Ne, byte_eq_zero_iff, not_forall]
  simp only [getLsbD_and_not, isPending_eq, isMasked_eq, Bool.not_eq_false, Bool.and_eq_true, Bool.not_eq_true']

/-- Settles O16: the kinds that an acknowledgement leaves, and the frame of the kinds that come out of the mask. -/
theorem noticeRequestsAckAndMask : Obligations.NoticeRequestsAckAndMask := by
  unfold Obligations.NoticeRequestsAckAndMask
  intro s f rest b h hp
  refine ⟨fun hk => ?_, fun k => ?_, fun hk => ?_⟩
  · exact request_answers h (requestRow_of_kind hk (by decide)) (by rw [hp]; rfl) (by rw [hp]; rfl)
  · rw [and_bit_eq_zero, getLsbD_and_not, isPending_eq, Ne, and_bit_eq_zero, Bool.not_eq_false, Bool.and_eq_false_iff,
      Bool.not_eq_false']
  · obtain ⟨-, htx, -⟩ := id h
    have answers {a : Answer} {t : State} (hbody : noticeMask [b] (s.dequeue rest) = (a, t)) :
        exec .noticeMask s = .next (t.answered f a) :=
      request_answers h (requestRow_of_kind hk (by decide)) (by rw [hp]; rfl) (by rw [hp]; exact hbody)
    by_cases hcause : s.link.mask &&& ~~~b &&& s.link.notices = 0
    · rw [answers (noticeMask_silent hcause), if_pos hcause]
      simp only [State.answered, makeReady, State.dequeue, htx]
    · rw [answers (noticeMask_tells hcause), if_neg hcause]
      simp only [State.answered, makeReady, State.dequeue, htx, List.nil_append]
      rfl

end Sys2Proof.Machine
end

section
/-! A step at a queue with a command in it; `step_empty` is the other branch. -/

namespace Sys2Proof.Machine

/-- Settles O1: the queue has a front, so the step is the branch that runs it. -/
theorem stepRunsFrontCommand : Obligations.StepRunsFrontCommand := by
  unfold Obligations.StepRunsFrontCommand
  intro s c rest hfront
  simp only [step, hfront]

end Sys2Proof.Machine
end
